-- ==== Sys2Proof/Config.lean ====
section
/-! DEFINITION. What this hardware fixes once for all (00_scope.md rule R5). No free value is needed: every result and
every flag has a definite rule (10_state.md rule R33; log 9). The two arguments the spec leaves open,
`SKIP_UNIMPLEMENTED` and `HOSTED`, are the caller's choice for a run and stand in `State` (log 8). -/

namespace Sys2Proof.Config

/-- Number of general register cells (R5, R21). -/
abbrev cellCount : Nat := 16

/-- Number of byte addresses: addresses are 64 bits wide (R5, R50). -/
abbrev addressSpace : Nat := 2 ^ 64

/-- Bits of one instruction record (R81, R97). -/
abbrev recordBits : Nat := 224

/-- The default of the model argument `SKIP_UNIMPLEMENTED` (R5). -/
abbrev skipUnimplementedDefault : Bool := false

end Sys2Proof.Config
end

