-- ==== Sys2Proof/Word.lean ====
section
/-! DEFINITION. The machine word and the four operand widths (00_scope.md rules R5, R6). -/

namespace Sys2Proof

/-- A register cell, an address, an operand bus: 64 bits. -/
abbrev Word := BitVec 64

/-- A memory byte (R50). -/
abbrev Byte := BitVec 8

/-- The operand widths W of R5; `wsel` 0, 1, 2, 3 of R91 selects them in this order. -/
inductive Width where
  | w8 | w16 | w32 | w64
  deriving DecidableEq, Repr

/-- The width in bits. -/
def Width.bits : Width → Nat
  | .w8 => 8
  | .w16 => 16
  | .w32 => 32
  | .w64 => 64

/-- The width in bytes, W / 8 (R53). -/
def Width.bytes : Width → Nat
  | .w8 => 1
  | .w16 => 2
  | .w32 => 4
  | .w64 => 8

end Sys2Proof
end

