-- ==== Sys2Proof/Syntax.lean ====
section
/-! DEFINITION. The decoded-instruction record as syntax: operand descriptors and slots (30_encoding.md rules R82,
R83), the operations, shapes and variants (rules R90 to R93), and `Instr`, one constructor for each of the 195 rows of
spec/opcode_table.json (rule R102). `Instr.form` sorts the rows by handler template. -/

namespace Sys2Proof

/-- One instruction record, `rec[223:0]` (R81): `{pay1, ctl1, pay0, ctl0, hdr}`. -/
abbrev Record := BitVec Config.recordBits

/-- Index of a general register cell (R21, R22). -/
abbrev RegIdx := Fin Config.cellCount

/-- The accumulator, cell 0 (R22, R91). -/
abbrev RegIdx.rax : RegIdx := 0
/-- Cell 1, whose 8-bit view CL is a shift count (R22, R92). -/
abbrev RegIdx.rcx : RegIdx := 1
/-- The stack pointer, cell 4 (R22, R170, R171). -/
abbrev RegIdx.rsp : RegIdx := 4

/-- The scales of a memory operand (R83): `scale_log2` 0, 1, 2, 3. -/
inductive Scale where
  | x1 | x2 | x4 | x8
  deriving DecidableEq, Repr

/-- The scale as a factor (R85). -/
def Scale.factor : Scale → Nat
  | .x1 => 1
  | .x2 => 2
  | .x4 => 4
  | .x8 => 8

/-- An operand descriptor before resolution (R83). A field its kind ignores is not kept.
The widths in bytes are the raw four-bit fields: R84 and R86 say which are refused, when the operand is resolved. -/
inductive Desc where
  /-- Kind 0: cell index and view width in bytes. -/
  | reg (num : RegIdx) (wbytes : BitVec 4)
  /-- Kind 1: optional base, optional index, scale, displacement. -/
  | mem (base : Option RegIdx) (index : Option RegIdx) (scale : Scale) (disp : Word)
  /-- Kind 2: declared width in bytes and the whole payload. -/
  | imm (wbytes : BitVec 4) (pay : Word)
  /-- Kind 3: an operand encoding the core does not recognise (R87). -/
  | unrecognised
  deriving DecidableEq, Repr

/-- An operand slot: the reserved bits `ctl[31:18]`, which a handler checks (R89), and the descriptor. -/
structure Slot where
  reserved : BitVec 14
  desc : Desc
  deriving DecidableEq, Repr

/-- What a record holds beside mnemonic, variant and the header's reserved bits: the operand count and the two slots (R82). -/
structure Fields where
  opcount : BitVec 2
  slot0 : Slot
  slot1 : Slot
  deriving DecidableEq, Repr

/-- The pair that names an opcode: mnemonic id and variant id (R82). -/
structure OpcodeId where
  mnemonic : BitVec 8
  variant : BitVec 8
  deriving DecidableEq, Repr

/-- The operations of the engine (R98). -/
inductive EngineOp where
  | add | or | and | sub | xor | cmp | rol | ror | shl | shr | sar
  deriving DecidableEq, Repr

/-- Operand shapes of the two-operand mnemonics (R91). -/
inductive AluShape where
  | rmR | rRm | accImm | rmImm | rmImm8
  deriving DecidableEq, Repr

/-- Operand shapes of the shift and rotate mnemonics (R92). -/
inductive ShiftShape where
  | rm1 | rmCl | rmImm8
  deriving DecidableEq, Repr

/-- The stack mnemonics (R93). -/
inductive StackOp where
  | push | pop
  deriving DecidableEq, Repr

/-- One constructor per row of spec/opcode_table.json, in its order. A row with a handler carries the record's
fields; a row that dispatch refuses does not, since its operands are never looked at (R95, R172; log 16); the reserved
mnemonic ids keep the variant byte, which their error names (R185). -/
inductive Instr where
  | addRm8R8 (f : Fields)
  | addRm16R16 (f : Fields)
  | addRm32R32 (f : Fields)
  | addRm64R64 (f : Fields)
  | addR8Rm8 (f : Fields)
  | addR16Rm16 (f : Fields)
  | addR32Rm32 (f : Fields)
  | addR64Rm64 (f : Fields)
  | addAlImm8 (f : Fields)
  | addAxImm16 (f : Fields)
  | addEaxImm32 (f : Fields)
  | addRaxImm32 (f : Fields)
  | addRm8Imm8 (f : Fields)
  | addRm16Imm16 (f : Fields)
  | addRm32Imm32 (f : Fields)
  | addRm64Imm32 (f : Fields)
  | addRm16Imm8 (f : Fields)
  | addRm32Imm8 (f : Fields)
  | addRm64Imm8 (f : Fields)
  | orRm8R8 (f : Fields)
  | orRm16R16 (f : Fields)
  | orRm32R32 (f : Fields)
  | orRm64R64 (f : Fields)
  | orR8Rm8 (f : Fields)
  | orR16Rm16 (f : Fields)
  | orR32Rm32 (f : Fields)
  | orR64Rm64 (f : Fields)
  | orAlImm8 (f : Fields)
  | orAxImm16 (f : Fields)
  | orEaxImm32 (f : Fields)
  | orRaxImm32 (f : Fields)
  | orRm8Imm8 (f : Fields)
  | orRm16Imm16 (f : Fields)
  | orRm32Imm32 (f : Fields)
  | orRm64Imm32 (f : Fields)
  | orRm16Imm8 (f : Fields)
  | orRm32Imm8 (f : Fields)
  | orRm64Imm8 (f : Fields)
  | andRm8R8 (f : Fields)
  | andRm16R16 (f : Fields)
  | andRm32R32 (f : Fields)
  | andRm64R64 (f : Fields)
  | andR8Rm8 (f : Fields)
  | andR16Rm16 (f : Fields)
  | andR32Rm32 (f : Fields)
  | andR64Rm64 (f : Fields)
  | andAlImm8 (f : Fields)
  | andAxImm16 (f : Fields)
  | andEaxImm32 (f : Fields)
  | andRaxImm32 (f : Fields)
  | andRm8Imm8 (f : Fields)
  | andRm16Imm16 (f : Fields)
  | andRm32Imm32 (f : Fields)
  | andRm64Imm32 (f : Fields)
  | andRm16Imm8 (f : Fields)
  | andRm32Imm8 (f : Fields)
  | andRm64Imm8 (f : Fields)
  | subRm8R8 (f : Fields)
  | subRm16R16 (f : Fields)
  | subRm32R32 (f : Fields)
  | subRm64R64 (f : Fields)
  | subR8Rm8 (f : Fields)
  | subR16Rm16 (f : Fields)
  | subR32Rm32 (f : Fields)
  | subR64Rm64 (f : Fields)
  | subAlImm8 (f : Fields)
  | subAxImm16 (f : Fields)
  | subEaxImm32 (f : Fields)
  | subRaxImm32 (f : Fields)
  | subRm8Imm8 (f : Fields)
  | subRm16Imm16 (f : Fields)
  | subRm32Imm32 (f : Fields)
  | subRm64Imm32 (f : Fields)
  | subRm16Imm8 (f : Fields)
  | subRm32Imm8 (f : Fields)
  | subRm64Imm8 (f : Fields)
  | xorRm8R8 (f : Fields)
  | xorRm16R16 (f : Fields)
  | xorRm32R32 (f : Fields)
  | xorRm64R64 (f : Fields)
  | xorR8Rm8 (f : Fields)
  | xorR16Rm16 (f : Fields)
  | xorR32Rm32 (f : Fields)
  | xorR64Rm64 (f : Fields)
  | xorAlImm8 (f : Fields)
  | xorAxImm16 (f : Fields)
  | xorEaxImm32 (f : Fields)
  | xorRaxImm32 (f : Fields)
  | xorRm8Imm8 (f : Fields)
  | xorRm16Imm16 (f : Fields)
  | xorRm32Imm32 (f : Fields)
  | xorRm64Imm32 (f : Fields)
  | xorRm16Imm8 (f : Fields)
  | xorRm32Imm8 (f : Fields)
  | xorRm64Imm8 (f : Fields)
  | cmpRm8R8 (f : Fields)
  | cmpRm16R16 (f : Fields)
  | cmpRm32R32 (f : Fields)
  | cmpRm64R64 (f : Fields)
  | cmpR8Rm8 (f : Fields)
  | cmpR16Rm16 (f : Fields)
  | cmpR32Rm32 (f : Fields)
  | cmpR64Rm64 (f : Fields)
  | cmpAlImm8 (f : Fields)
  | cmpAxImm16 (f : Fields)
  | cmpEaxImm32 (f : Fields)
  | cmpRaxImm32 (f : Fields)
  | cmpRm8Imm8 (f : Fields)
  | cmpRm16Imm16 (f : Fields)
  | cmpRm32Imm32 (f : Fields)
  | cmpRm64Imm32 (f : Fields)
  | cmpRm16Imm8 (f : Fields)
  | cmpRm32Imm8 (f : Fields)
  | cmpRm64Imm8 (f : Fields)
  | rolRm8By1 (f : Fields)
  | rolRm16By1 (f : Fields)
  | rolRm32By1 (f : Fields)
  | rolRm64By1 (f : Fields)
  | rolRm8Cl (f : Fields)
  | rolRm16Cl (f : Fields)
  | rolRm32Cl (f : Fields)
  | rolRm64Cl (f : Fields)
  | rolRm8Imm8 (f : Fields)
  | rolRm16Imm8 (f : Fields)
  | rolRm32Imm8 (f : Fields)
  | rolRm64Imm8 (f : Fields)
  | rorRm8By1 (f : Fields)
  | rorRm16By1 (f : Fields)
  | rorRm32By1 (f : Fields)
  | rorRm64By1 (f : Fields)
  | rorRm8Cl (f : Fields)
  | rorRm16Cl (f : Fields)
  | rorRm32Cl (f : Fields)
  | rorRm64Cl (f : Fields)
  | rorRm8Imm8 (f : Fields)
  | rorRm16Imm8 (f : Fields)
  | rorRm32Imm8 (f : Fields)
  | rorRm64Imm8 (f : Fields)
  | shlRm8By1 (f : Fields)
  | shlRm16By1 (f : Fields)
  | shlRm32By1 (f : Fields)
  | shlRm64By1 (f : Fields)
  | shlRm8Cl (f : Fields)
  | shlRm16Cl (f : Fields)
  | shlRm32Cl (f : Fields)
  | shlRm64Cl (f : Fields)
  | shlRm8Imm8 (f : Fields)
  | shlRm16Imm8 (f : Fields)
  | shlRm32Imm8 (f : Fields)
  | shlRm64Imm8 (f : Fields)
  | shrRm8By1 (f : Fields)
  | shrRm16By1 (f : Fields)
  | shrRm32By1 (f : Fields)
  | shrRm64By1 (f : Fields)
  | shrRm8Cl (f : Fields)
  | shrRm16Cl (f : Fields)
  | shrRm32Cl (f : Fields)
  | shrRm64Cl (f : Fields)
  | shrRm8Imm8 (f : Fields)
  | shrRm16Imm8 (f : Fields)
  | shrRm32Imm8 (f : Fields)
  | shrRm64Imm8 (f : Fields)
  | sarRm8By1 (f : Fields)
  | sarRm16By1 (f : Fields)
  | sarRm32By1 (f : Fields)
  | sarRm64By1 (f : Fields)
  | sarRm8Cl (f : Fields)
  | sarRm16Cl (f : Fields)
  | sarRm32Cl (f : Fields)
  | sarRm64Cl (f : Fields)
  | sarRm8Imm8 (f : Fields)
  | sarRm16Imm8 (f : Fields)
  | sarRm32Imm8 (f : Fields)
  | sarRm64Imm8 (f : Fields)
  | pushR16 (f : Fields)
  | pushR64 (f : Fields)
  | pushR32
  | pushRm32
  | pushImmOpsize32
  | pushRm16
  | pushRm64
  | pushImmOpsize16
  | pushImmOpsize64
  | popR16 (f : Fields)
  | popR64 (f : Fields)
  | popR32
  | popRm32
  | popImmOpsize32
  | popRm16
  | popRm64
  | adc (v : BitVec 8)
  | sbb (v : BitVec 8)
  | rcl (v : BitVec 8)
  | rcr (v : BitVec 8)
  | sal (v : BitVec 8)
  deriving DecidableEq, Repr

/-- The rows sorted by what dispatch does with them (R95, R102 `format`). -/
inductive Form where
  /-- Two-operand template (R122). -/
  | alu2 (op : EngineOp) (shape : AluShape) (w : Width) (f : Fields)
  /-- Shift and rotate template (R123). -/
  | shift (op : EngineOp) (shape : ShiftShape) (w : Width) (f : Fields)
  /-- PUSH of a register (R170). -/
  | push (w : Width) (f : Fields)
  /-- POP of a register (R171). -/
  | pop (w : Width) (f : Fields)
  /-- A PUSH or POP variant with 32-bit operand size (R172). -/
  | defect32 (op : StackOp) (variant : BitVec 8)
  /-- A PUSH or POP variant that is not yet ported (R93). -/
  | unported (op : StackOp) (variant : BitVec 8)
  /-- A reserved mnemonic id (R90, R95). -/
  | reserved (mnemonic variant : BitVec 8)
  deriving DecidableEq, Repr

/-- The form of each row. -/
def Instr.form : Instr → Form
  | .addRm8R8 f => .alu2 .add .rmR .w8 f
  | .addRm16R16 f => .alu2 .add .rmR .w16 f
  | .addRm32R32 f => .alu2 .add .rmR .w32 f
  | .addRm64R64 f => .alu2 .add .rmR .w64 f
  | .addR8Rm8 f => .alu2 .add .rRm .w8 f
  | .addR16Rm16 f => .alu2 .add .rRm .w16 f
  | .addR32Rm32 f => .alu2 .add .rRm .w32 f
  | .addR64Rm64 f => .alu2 .add .rRm .w64 f
  | .addAlImm8 f => .alu2 .add .accImm .w8 f
  | .addAxImm16 f => .alu2 .add .accImm .w16 f
  | .addEaxImm32 f => .alu2 .add .accImm .w32 f
  | .addRaxImm32 f => .alu2 .add .accImm .w64 f
  | .addRm8Imm8 f => .alu2 .add .rmImm .w8 f
  | .addRm16Imm16 f => .alu2 .add .rmImm .w16 f
  | .addRm32Imm32 f => .alu2 .add .rmImm .w32 f
  | .addRm64Imm32 f => .alu2 .add .rmImm .w64 f
  | .addRm16Imm8 f => .alu2 .add .rmImm8 .w16 f
  | .addRm32Imm8 f => .alu2 .add .rmImm8 .w32 f
  | .addRm64Imm8 f => .alu2 .add .rmImm8 .w64 f
  | .orRm8R8 f => .alu2 .or .rmR .w8 f
  | .orRm16R16 f => .alu2 .or .rmR .w16 f
  | .orRm32R32 f => .alu2 .or .rmR .w32 f
  | .orRm64R64 f => .alu2 .or .rmR .w64 f
  | .orR8Rm8 f => .alu2 .or .rRm .w8 f
  | .orR16Rm16 f => .alu2 .or .rRm .w16 f
  | .orR32Rm32 f => .alu2 .or .rRm .w32 f
  | .orR64Rm64 f => .alu2 .or .rRm .w64 f
  | .orAlImm8 f => .alu2 .or .accImm .w8 f
  | .orAxImm16 f => .alu2 .or .accImm .w16 f
  | .orEaxImm32 f => .alu2 .or .accImm .w32 f
  | .orRaxImm32 f => .alu2 .or .accImm .w64 f
  | .orRm8Imm8 f => .alu2 .or .rmImm .w8 f
  | .orRm16Imm16 f => .alu2 .or .rmImm .w16 f
  | .orRm32Imm32 f => .alu2 .or .rmImm .w32 f
  | .orRm64Imm32 f => .alu2 .or .rmImm .w64 f
  | .orRm16Imm8 f => .alu2 .or .rmImm8 .w16 f
  | .orRm32Imm8 f => .alu2 .or .rmImm8 .w32 f
  | .orRm64Imm8 f => .alu2 .or .rmImm8 .w64 f
  | .andRm8R8 f => .alu2 .and .rmR .w8 f
  | .andRm16R16 f => .alu2 .and .rmR .w16 f
  | .andRm32R32 f => .alu2 .and .rmR .w32 f
  | .andRm64R64 f => .alu2 .and .rmR .w64 f
  | .andR8Rm8 f => .alu2 .and .rRm .w8 f
  | .andR16Rm16 f => .alu2 .and .rRm .w16 f
  | .andR32Rm32 f => .alu2 .and .rRm .w32 f
  | .andR64Rm64 f => .alu2 .and .rRm .w64 f
  | .andAlImm8 f => .alu2 .and .accImm .w8 f
  | .andAxImm16 f => .alu2 .and .accImm .w16 f
  | .andEaxImm32 f => .alu2 .and .accImm .w32 f
  | .andRaxImm32 f => .alu2 .and .accImm .w64 f
  | .andRm8Imm8 f => .alu2 .and .rmImm .w8 f
  | .andRm16Imm16 f => .alu2 .and .rmImm .w16 f
  | .andRm32Imm32 f => .alu2 .and .rmImm .w32 f
  | .andRm64Imm32 f => .alu2 .and .rmImm .w64 f
  | .andRm16Imm8 f => .alu2 .and .rmImm8 .w16 f
  | .andRm32Imm8 f => .alu2 .and .rmImm8 .w32 f
  | .andRm64Imm8 f => .alu2 .and .rmImm8 .w64 f
  | .subRm8R8 f => .alu2 .sub .rmR .w8 f
  | .subRm16R16 f => .alu2 .sub .rmR .w16 f
  | .subRm32R32 f => .alu2 .sub .rmR .w32 f
  | .subRm64R64 f => .alu2 .sub .rmR .w64 f
  | .subR8Rm8 f => .alu2 .sub .rRm .w8 f
  | .subR16Rm16 f => .alu2 .sub .rRm .w16 f
  | .subR32Rm32 f => .alu2 .sub .rRm .w32 f
  | .subR64Rm64 f => .alu2 .sub .rRm .w64 f
  | .subAlImm8 f => .alu2 .sub .accImm .w8 f
  | .subAxImm16 f => .alu2 .sub .accImm .w16 f
  | .subEaxImm32 f => .alu2 .sub .accImm .w32 f
  | .subRaxImm32 f => .alu2 .sub .accImm .w64 f
  | .subRm8Imm8 f => .alu2 .sub .rmImm .w8 f
  | .subRm16Imm16 f => .alu2 .sub .rmImm .w16 f
  | .subRm32Imm32 f => .alu2 .sub .rmImm .w32 f
  | .subRm64Imm32 f => .alu2 .sub .rmImm .w64 f
  | .subRm16Imm8 f => .alu2 .sub .rmImm8 .w16 f
  | .subRm32Imm8 f => .alu2 .sub .rmImm8 .w32 f
  | .subRm64Imm8 f => .alu2 .sub .rmImm8 .w64 f
  | .xorRm8R8 f => .alu2 .xor .rmR .w8 f
  | .xorRm16R16 f => .alu2 .xor .rmR .w16 f
  | .xorRm32R32 f => .alu2 .xor .rmR .w32 f
  | .xorRm64R64 f => .alu2 .xor .rmR .w64 f
  | .xorR8Rm8 f => .alu2 .xor .rRm .w8 f
  | .xorR16Rm16 f => .alu2 .xor .rRm .w16 f
  | .xorR32Rm32 f => .alu2 .xor .rRm .w32 f
  | .xorR64Rm64 f => .alu2 .xor .rRm .w64 f
  | .xorAlImm8 f => .alu2 .xor .accImm .w8 f
  | .xorAxImm16 f => .alu2 .xor .accImm .w16 f
  | .xorEaxImm32 f => .alu2 .xor .accImm .w32 f
  | .xorRaxImm32 f => .alu2 .xor .accImm .w64 f
  | .xorRm8Imm8 f => .alu2 .xor .rmImm .w8 f
  | .xorRm16Imm16 f => .alu2 .xor .rmImm .w16 f
  | .xorRm32Imm32 f => .alu2 .xor .rmImm .w32 f
  | .xorRm64Imm32 f => .alu2 .xor .rmImm .w64 f
  | .xorRm16Imm8 f => .alu2 .xor .rmImm8 .w16 f
  | .xorRm32Imm8 f => .alu2 .xor .rmImm8 .w32 f
  | .xorRm64Imm8 f => .alu2 .xor .rmImm8 .w64 f
  | .cmpRm8R8 f => .alu2 .cmp .rmR .w8 f
  | .cmpRm16R16 f => .alu2 .cmp .rmR .w16 f
  | .cmpRm32R32 f => .alu2 .cmp .rmR .w32 f
  | .cmpRm64R64 f => .alu2 .cmp .rmR .w64 f
  | .cmpR8Rm8 f => .alu2 .cmp .rRm .w8 f
  | .cmpR16Rm16 f => .alu2 .cmp .rRm .w16 f
  | .cmpR32Rm32 f => .alu2 .cmp .rRm .w32 f
  | .cmpR64Rm64 f => .alu2 .cmp .rRm .w64 f
  | .cmpAlImm8 f => .alu2 .cmp .accImm .w8 f
  | .cmpAxImm16 f => .alu2 .cmp .accImm .w16 f
  | .cmpEaxImm32 f => .alu2 .cmp .accImm .w32 f
  | .cmpRaxImm32 f => .alu2 .cmp .accImm .w64 f
  | .cmpRm8Imm8 f => .alu2 .cmp .rmImm .w8 f
  | .cmpRm16Imm16 f => .alu2 .cmp .rmImm .w16 f
  | .cmpRm32Imm32 f => .alu2 .cmp .rmImm .w32 f
  | .cmpRm64Imm32 f => .alu2 .cmp .rmImm .w64 f
  | .cmpRm16Imm8 f => .alu2 .cmp .rmImm8 .w16 f
  | .cmpRm32Imm8 f => .alu2 .cmp .rmImm8 .w32 f
  | .cmpRm64Imm8 f => .alu2 .cmp .rmImm8 .w64 f
  | .rolRm8By1 f => .shift .rol .rm1 .w8 f
  | .rolRm16By1 f => .shift .rol .rm1 .w16 f
  | .rolRm32By1 f => .shift .rol .rm1 .w32 f
  | .rolRm64By1 f => .shift .rol .rm1 .w64 f
  | .rolRm8Cl f => .shift .rol .rmCl .w8 f
  | .rolRm16Cl f => .shift .rol .rmCl .w16 f
  | .rolRm32Cl f => .shift .rol .rmCl .w32 f
  | .rolRm64Cl f => .shift .rol .rmCl .w64 f
  | .rolRm8Imm8 f => .shift .rol .rmImm8 .w8 f
  | .rolRm16Imm8 f => .shift .rol .rmImm8 .w16 f
  | .rolRm32Imm8 f => .shift .rol .rmImm8 .w32 f
  | .rolRm64Imm8 f => .shift .rol .rmImm8 .w64 f
  | .rorRm8By1 f => .shift .ror .rm1 .w8 f
  | .rorRm16By1 f => .shift .ror .rm1 .w16 f
  | .rorRm32By1 f => .shift .ror .rm1 .w32 f
  | .rorRm64By1 f => .shift .ror .rm1 .w64 f
  | .rorRm8Cl f => .shift .ror .rmCl .w8 f
  | .rorRm16Cl f => .shift .ror .rmCl .w16 f
  | .rorRm32Cl f => .shift .ror .rmCl .w32 f
  | .rorRm64Cl f => .shift .ror .rmCl .w64 f
  | .rorRm8Imm8 f => .shift .ror .rmImm8 .w8 f
  | .rorRm16Imm8 f => .shift .ror .rmImm8 .w16 f
  | .rorRm32Imm8 f => .shift .ror .rmImm8 .w32 f
  | .rorRm64Imm8 f => .shift .ror .rmImm8 .w64 f
  | .shlRm8By1 f => .shift .shl .rm1 .w8 f
  | .shlRm16By1 f => .shift .shl .rm1 .w16 f
  | .shlRm32By1 f => .shift .shl .rm1 .w32 f
  | .shlRm64By1 f => .shift .shl .rm1 .w64 f
  | .shlRm8Cl f => .shift .shl .rmCl .w8 f
  | .shlRm16Cl f => .shift .shl .rmCl .w16 f
  | .shlRm32Cl f => .shift .shl .rmCl .w32 f
  | .shlRm64Cl f => .shift .shl .rmCl .w64 f
  | .shlRm8Imm8 f => .shift .shl .rmImm8 .w8 f
  | .shlRm16Imm8 f => .shift .shl .rmImm8 .w16 f
  | .shlRm32Imm8 f => .shift .shl .rmImm8 .w32 f
  | .shlRm64Imm8 f => .shift .shl .rmImm8 .w64 f
  | .shrRm8By1 f => .shift .shr .rm1 .w8 f
  | .shrRm16By1 f => .shift .shr .rm1 .w16 f
  | .shrRm32By1 f => .shift .shr .rm1 .w32 f
  | .shrRm64By1 f => .shift .shr .rm1 .w64 f
  | .shrRm8Cl f => .shift .shr .rmCl .w8 f
  | .shrRm16Cl f => .shift .shr .rmCl .w16 f
  | .shrRm32Cl f => .shift .shr .rmCl .w32 f
  | .shrRm64Cl f => .shift .shr .rmCl .w64 f
  | .shrRm8Imm8 f => .shift .shr .rmImm8 .w8 f
  | .shrRm16Imm8 f => .shift .shr .rmImm8 .w16 f
  | .shrRm32Imm8 f => .shift .shr .rmImm8 .w32 f
  | .shrRm64Imm8 f => .shift .shr .rmImm8 .w64 f
  | .sarRm8By1 f => .shift .sar .rm1 .w8 f
  | .sarRm16By1 f => .shift .sar .rm1 .w16 f
  | .sarRm32By1 f => .shift .sar .rm1 .w32 f
  | .sarRm64By1 f => .shift .sar .rm1 .w64 f
  | .sarRm8Cl f => .shift .sar .rmCl .w8 f
  | .sarRm16Cl f => .shift .sar .rmCl .w16 f
  | .sarRm32Cl f => .shift .sar .rmCl .w32 f
  | .sarRm64Cl f => .shift .sar .rmCl .w64 f
  | .sarRm8Imm8 f => .shift .sar .rmImm8 .w8 f
  | .sarRm16Imm8 f => .shift .sar .rmImm8 .w16 f
  | .sarRm32Imm8 f => .shift .sar .rmImm8 .w32 f
  | .sarRm64Imm8 f => .shift .sar .rmImm8 .w64 f
  | .pushR16 f => .push .w16 f
  | .pushR64 f => .push .w64 f
  | .pushR32 => .defect32 .push 0x02
  | .pushRm32 => .defect32 .push 0x06
  | .pushImmOpsize32 => .defect32 .push 0x0A
  | .pushRm16 => .unported .push 0x05
  | .pushRm64 => .unported .push 0x07
  | .pushImmOpsize16 => .unported .push 0x09
  | .pushImmOpsize64 => .unported .push 0x0B
  | .popR16 f => .pop .w16 f
  | .popR64 f => .pop .w64 f
  | .popR32 => .defect32 .pop 0x02
  | .popRm32 => .defect32 .pop 0x06
  | .popImmOpsize32 => .defect32 .pop 0x0A
  | .popRm16 => .unported .pop 0x05
  | .popRm64 => .unported .pop 0x07
  | .adc v => .reserved 0x02 v
  | .sbb v => .reserved 0x03 v
  | .rcl v => .reserved 0x12 v
  | .rcr v => .reserved 0x13 v
  | .sal v => .reserved 0x16 v

end Sys2Proof
end

