-- ==== Sys2Proof/WellFormed.lean ====
section
/-! DEFINITION. Which instructions fit their row: the operand count, the reserved bits, and the kinds, widths, fixed
cell and immediate width of 30_encoding.md rules R91 to R93. These are the records whose handler raises neither a
defect nor an operand error (R96); the handlers do not assume it, they check again (R122, R123, R170, R171). -/

namespace Sys2Proof

/-- `Register(_, W)`. -/
def Desc.isReg (w : Width) : Desc → Bool
  | .reg _ nb => nb.toNat == w.bytes
  | _ => false

/-- `Register(i, W)`, the fixed cell of `acc_imm` and `rm_CL` (R91, R92). -/
def Desc.isFixedReg (i : RegIdx) (w : Width) : Desc → Bool
  | .reg j nb => j == i && nb.toNat == w.bytes
  | _ => false

/-- `Register(_, W)` or Memory. -/
def Desc.isRegOrMem (w : Width) : Desc → Bool
  | .reg _ nb => nb.toNat == w.bytes
  | .mem .. => true
  | _ => false

/-- `Immediate(_, n)`. -/
def Desc.isImm (n : Nat) : Desc → Bool
  | .imm nb _ => nb.toNat == n
  | _ => false

/-- Immediate width `nb` in bytes of `acc_imm` and `rm_imm` at width W (R91). -/
def Width.immBytes : Width → Nat
  | .w8 => 1
  | .w16 => 2
  | .w32 => 4
  | .w64 => 4

/-- Operand 0 of a two-operand shape (R91). -/
def AluShape.destFits (w : Width) (d : Desc) : AluShape → Bool
  | .rmR => d.isRegOrMem w
  | .rRm => d.isReg w
  | .accImm => d.isFixedReg .rax w
  | .rmImm => d.isRegOrMem w
  | .rmImm8 => d.isRegOrMem w

/-- Operand 1 of a two-operand shape (R91). -/
def AluShape.srcFits (w : Width) (d : Desc) : AluShape → Bool
  | .rmR => d.isReg w
  | .rRm => d.isRegOrMem w
  | .accImm => d.isImm w.immBytes
  | .rmImm => d.isImm w.immBytes
  | .rmImm8 => d.isImm 1

/-- Operand count of a shift shape (R92). -/
def ShiftShape.opcount : ShiftShape → BitVec 2
  | .rm1 => 1
  | .rmCl => 2
  | .rmImm8 => 2

/-- The count operand of a shift shape (R92); `rm_1` has none and ignores slot 1 (R82). -/
def ShiftShape.countFits (s : Slot) : ShiftShape → Bool
  | .rm1 => true
  | .rmCl => s.reserved == 0 && s.desc.isFixedReg .rcx .w8
  | .rmImm8 => s.reserved == 0 && s.desc.isImm 1

/-- The widths PUSH and POP have handlers for (R93). -/
def Width.isStackWidth : Width → Bool
  | .w16 => true
  | .w64 => true
  | .w8 => false
  | .w32 => false

/-- The fields fit the form. A row that dispatch refuses looks at no operand (R95). -/
def Form.wellFormed : Form → Bool
  | .alu2 _ shape w f =>
    f.opcount == 2 && f.slot0.reserved == 0 && f.slot1.reserved == 0
      && shape.destFits w f.slot0.desc && shape.srcFits w f.slot1.desc
  | .shift _ shape w f =>
    f.opcount == shape.opcount && f.slot0.reserved == 0
      && f.slot0.desc.isRegOrMem w && shape.countFits f.slot1
  | .push w f => f.opcount == 1 && f.slot0.reserved == 0 && w.isStackWidth && f.slot0.desc.isReg w
  | .pop w f => f.opcount == 1 && f.slot0.reserved == 0 && w.isStackWidth && f.slot0.desc.isReg w
  | .defect32 .. => true
  | .unported .. => true
  | .reserved .. => true

/-- The instruction's operands fit its row. -/
def Instr.wellFormed (i : Instr) : Bool := i.form.wellFormed

end Sys2Proof
end

