-- ==== Sys2Proof/Decode.lean ====
section
/-! DEFINITION. Decoding a 224-bit record (30_encoding.md rules R81 to R83, R90 to R93, R95) and, after it, encoding an
instruction. Decoding is total and rejects by name what selects no row (R102). The packed layout and every id are the
spec's own (D12, D13). -/

namespace Sys2Proof

/-- Why a record selects no row of the opcode table, with the record's own ids (R89, R95). -/
inductive Reject where
  /-- `hdr[31:18]` is not 0 (R89). -/
  | reservedBits (id : OpcodeId)
  /-- The mnemonic id has no table and is none of the five reserved ids (R90, R95). -/
  | noTable (id : OpcodeId)
  /-- The variant byte is not in the mnemonic's table (R91 to R93, R95). -/
  | unrecognisedVariant (id : OpcodeId)
  deriving DecidableEq, Repr

/-! ## Fields of a record -/

/-- `hdr` (R81). -/
def Record.hdr (r : Record) : BitVec 32 := r.extractLsb' 0 32
/-- `ctl0` (R81). -/
def Record.ctl0 (r : Record) : BitVec 32 := r.extractLsb' 32 32
/-- `pay0` (R81). -/
def Record.pay0 (r : Record) : Word := r.extractLsb' 64 64
/-- `ctl1` (R81). -/
def Record.ctl1 (r : Record) : BitVec 32 := r.extractLsb' 128 32
/-- `pay1` (R81). -/
def Record.pay1 (r : Record) : Word := r.extractLsb' 160 64

/-- The word `{pay1, ctl1, pay0, ctl0, hdr}` (R81). -/
def Record.make (hdr ctl0 : BitVec 32) (pay0 : Word) (ctl1 : BitVec 32) (pay1 : Word) : Record :=
  (pay1 ++ ctl1 ++ pay0 ++ ctl0 ++ hdr : BitVec (64 + 32 + 64 + 32 + 32))

/-- Mnemonic and variant id of a header (R82). -/
def opcodeIdOf (hdr : BitVec 32) : OpcodeId := ⟨hdr.extractLsb' 0 8, hdr.extractLsb' 8 8⟩

/-- A cell index from its four-bit field (R83). -/
def regOfField (b : BitVec 4) : RegIdx := b.toFin

/-- A scale from `scale_log2` (R83). -/
def scaleOfField (b : BitVec 2) : Scale :=
  if b = 0 then .x1 else if b = 1 then .x2 else if b = 2 then .x4 else .x8

/-- A descriptor from its control word and payload (R83). -/
def decodeDesc (ctl : BitVec 32) (pay : Word) : Desc :=
  if ctl.extractLsb' 0 2 = 0 then
    .reg (regOfField (ctl.extractLsb' 2 4)) (ctl.extractLsb' 6 4)
  else if ctl.extractLsb' 0 2 = 1 then
    .mem (if ctl.extractLsb' 10 1 = 1 then some (regOfField (ctl.extractLsb' 2 4)) else none)
      (if ctl.extractLsb' 11 1 = 1 then some (regOfField (ctl.extractLsb' 12 4)) else none)
      (scaleOfField (ctl.extractLsb' 16 2)) pay
  else if ctl.extractLsb' 0 2 = 2 then
    .imm (ctl.extractLsb' 6 4) pay
  else .unrecognised

/-- A slot from its control word and payload (R83). -/
def decodeSlot (ctl : BitVec 32) (pay : Word) : Slot := ⟨ctl.extractLsb' 18 14, decodeDesc ctl pay⟩

/-- Operand count and slots of a record (R82, R83). -/
def decodeFields (r : Record) : Fields :=
  ⟨r.hdr.extractLsb' 16 2, decodeSlot r.ctl0 r.pay0, decodeSlot r.ctl1 r.pay1⟩

/-! ## Variant tables, one per mnemonic -/

/-- The 19 variants of ADD (R91). -/
def decodeAdd (v : BitVec 8) (f : Fields) : Option Instr :=
  match v with
  | 0x00#8 => some (.addRm8R8 f)
  | 0x01#8 => some (.addRm16R16 f)
  | 0x02#8 => some (.addRm32R32 f)
  | 0x03#8 => some (.addRm64R64 f)
  | 0x04#8 => some (.addR8Rm8 f)
  | 0x05#8 => some (.addR16Rm16 f)
  | 0x06#8 => some (.addR32Rm32 f)
  | 0x07#8 => some (.addR64Rm64 f)
  | 0x08#8 => some (.addAlImm8 f)
  | 0x09#8 => some (.addAxImm16 f)
  | 0x0A#8 => some (.addEaxImm32 f)
  | 0x0B#8 => some (.addRaxImm32 f)
  | 0x0C#8 => some (.addRm8Imm8 f)
  | 0x0D#8 => some (.addRm16Imm16 f)
  | 0x0E#8 => some (.addRm32Imm32 f)
  | 0x0F#8 => some (.addRm64Imm32 f)
  | 0x11#8 => some (.addRm16Imm8 f)
  | 0x12#8 => some (.addRm32Imm8 f)
  | 0x13#8 => some (.addRm64Imm8 f)
  | _ => none

/-- The 19 variants of OR (R91). -/
def decodeOr (v : BitVec 8) (f : Fields) : Option Instr :=
  match v with
  | 0x00#8 => some (.orRm8R8 f)
  | 0x01#8 => some (.orRm16R16 f)
  | 0x02#8 => some (.orRm32R32 f)
  | 0x03#8 => some (.orRm64R64 f)
  | 0x04#8 => some (.orR8Rm8 f)
  | 0x05#8 => some (.orR16Rm16 f)
  | 0x06#8 => some (.orR32Rm32 f)
  | 0x07#8 => some (.orR64Rm64 f)
  | 0x08#8 => some (.orAlImm8 f)
  | 0x09#8 => some (.orAxImm16 f)
  | 0x0A#8 => some (.orEaxImm32 f)
  | 0x0B#8 => some (.orRaxImm32 f)
  | 0x0C#8 => some (.orRm8Imm8 f)
  | 0x0D#8 => some (.orRm16Imm16 f)
  | 0x0E#8 => some (.orRm32Imm32 f)
  | 0x0F#8 => some (.orRm64Imm32 f)
  | 0x11#8 => some (.orRm16Imm8 f)
  | 0x12#8 => some (.orRm32Imm8 f)
  | 0x13#8 => some (.orRm64Imm8 f)
  | _ => none

/-- The 19 variants of AND (R91). -/
def decodeAnd (v : BitVec 8) (f : Fields) : Option Instr :=
  match v with
  | 0x00#8 => some (.andRm8R8 f)
  | 0x01#8 => some (.andRm16R16 f)
  | 0x02#8 => some (.andRm32R32 f)
  | 0x03#8 => some (.andRm64R64 f)
  | 0x04#8 => some (.andR8Rm8 f)
  | 0x05#8 => some (.andR16Rm16 f)
  | 0x06#8 => some (.andR32Rm32 f)
  | 0x07#8 => some (.andR64Rm64 f)
  | 0x08#8 => some (.andAlImm8 f)
  | 0x09#8 => some (.andAxImm16 f)
  | 0x0A#8 => some (.andEaxImm32 f)
  | 0x0B#8 => some (.andRaxImm32 f)
  | 0x0C#8 => some (.andRm8Imm8 f)
  | 0x0D#8 => some (.andRm16Imm16 f)
  | 0x0E#8 => some (.andRm32Imm32 f)
  | 0x0F#8 => some (.andRm64Imm32 f)
  | 0x11#8 => some (.andRm16Imm8 f)
  | 0x12#8 => some (.andRm32Imm8 f)
  | 0x13#8 => some (.andRm64Imm8 f)
  | _ => none

/-- The 19 variants of SUB (R91). -/
def decodeSub (v : BitVec 8) (f : Fields) : Option Instr :=
  match v with
  | 0x00#8 => some (.subRm8R8 f)
  | 0x01#8 => some (.subRm16R16 f)
  | 0x02#8 => some (.subRm32R32 f)
  | 0x03#8 => some (.subRm64R64 f)
  | 0x04#8 => some (.subR8Rm8 f)
  | 0x05#8 => some (.subR16Rm16 f)
  | 0x06#8 => some (.subR32Rm32 f)
  | 0x07#8 => some (.subR64Rm64 f)
  | 0x08#8 => some (.subAlImm8 f)
  | 0x09#8 => some (.subAxImm16 f)
  | 0x0A#8 => some (.subEaxImm32 f)
  | 0x0B#8 => some (.subRaxImm32 f)
  | 0x0C#8 => some (.subRm8Imm8 f)
  | 0x0D#8 => some (.subRm16Imm16 f)
  | 0x0E#8 => some (.subRm32Imm32 f)
  | 0x0F#8 => some (.subRm64Imm32 f)
  | 0x11#8 => some (.subRm16Imm8 f)
  | 0x12#8 => some (.subRm32Imm8 f)
  | 0x13#8 => some (.subRm64Imm8 f)
  | _ => none

/-- The 19 variants of XOR (R91). -/
def decodeXor (v : BitVec 8) (f : Fields) : Option Instr :=
  match v with
  | 0x00#8 => some (.xorRm8R8 f)
  | 0x01#8 => some (.xorRm16R16 f)
  | 0x02#8 => some (.xorRm32R32 f)
  | 0x03#8 => some (.xorRm64R64 f)
  | 0x04#8 => some (.xorR8Rm8 f)
  | 0x05#8 => some (.xorR16Rm16 f)
  | 0x06#8 => some (.xorR32Rm32 f)
  | 0x07#8 => some (.xorR64Rm64 f)
  | 0x08#8 => some (.xorAlImm8 f)
  | 0x09#8 => some (.xorAxImm16 f)
  | 0x0A#8 => some (.xorEaxImm32 f)
  | 0x0B#8 => some (.xorRaxImm32 f)
  | 0x0C#8 => some (.xorRm8Imm8 f)
  | 0x0D#8 => some (.xorRm16Imm16 f)
  | 0x0E#8 => some (.xorRm32Imm32 f)
  | 0x0F#8 => some (.xorRm64Imm32 f)
  | 0x11#8 => some (.xorRm16Imm8 f)
  | 0x12#8 => some (.xorRm32Imm8 f)
  | 0x13#8 => some (.xorRm64Imm8 f)
  | _ => none

/-- The 19 variants of CMP (R91). -/
def decodeCmp (v : BitVec 8) (f : Fields) : Option Instr :=
  match v with
  | 0x00#8 => some (.cmpRm8R8 f)
  | 0x01#8 => some (.cmpRm16R16 f)
  | 0x02#8 => some (.cmpRm32R32 f)
  | 0x03#8 => some (.cmpRm64R64 f)
  | 0x04#8 => some (.cmpR8Rm8 f)
  | 0x05#8 => some (.cmpR16Rm16 f)
  | 0x06#8 => some (.cmpR32Rm32 f)
  | 0x07#8 => some (.cmpR64Rm64 f)
  | 0x08#8 => some (.cmpAlImm8 f)
  | 0x09#8 => some (.cmpAxImm16 f)
  | 0x0A#8 => some (.cmpEaxImm32 f)
  | 0x0B#8 => some (.cmpRaxImm32 f)
  | 0x0C#8 => some (.cmpRm8Imm8 f)
  | 0x0D#8 => some (.cmpRm16Imm16 f)
  | 0x0E#8 => some (.cmpRm32Imm32 f)
  | 0x0F#8 => some (.cmpRm64Imm32 f)
  | 0x11#8 => some (.cmpRm16Imm8 f)
  | 0x12#8 => some (.cmpRm32Imm8 f)
  | 0x13#8 => some (.cmpRm64Imm8 f)
  | _ => none

/-- The 12 variants of ROL (R92). -/
def decodeRol (v : BitVec 8) (f : Fields) : Option Instr :=
  match v with
  | 0x00#8 => some (.rolRm8By1 f)
  | 0x01#8 => some (.rolRm16By1 f)
  | 0x02#8 => some (.rolRm32By1 f)
  | 0x03#8 => some (.rolRm64By1 f)
  | 0x04#8 => some (.rolRm8Cl f)
  | 0x05#8 => some (.rolRm16Cl f)
  | 0x06#8 => some (.rolRm32Cl f)
  | 0x07#8 => some (.rolRm64Cl f)
  | 0x08#8 => some (.rolRm8Imm8 f)
  | 0x09#8 => some (.rolRm16Imm8 f)
  | 0x0A#8 => some (.rolRm32Imm8 f)
  | 0x0B#8 => some (.rolRm64Imm8 f)
  | _ => none

/-- The 12 variants of ROR (R92). -/
def decodeRor (v : BitVec 8) (f : Fields) : Option Instr :=
  match v with
  | 0x00#8 => some (.rorRm8By1 f)
  | 0x01#8 => some (.rorRm16By1 f)
  | 0x02#8 => some (.rorRm32By1 f)
  | 0x03#8 => some (.rorRm64By1 f)
  | 0x04#8 => some (.rorRm8Cl f)
  | 0x05#8 => some (.rorRm16Cl f)
  | 0x06#8 => some (.rorRm32Cl f)
  | 0x07#8 => some (.rorRm64Cl f)
  | 0x08#8 => some (.rorRm8Imm8 f)
  | 0x09#8 => some (.rorRm16Imm8 f)
  | 0x0A#8 => some (.rorRm32Imm8 f)
  | 0x0B#8 => some (.rorRm64Imm8 f)
  | _ => none

/-- The 12 variants of SHL (R92). -/
def decodeShl (v : BitVec 8) (f : Fields) : Option Instr :=
  match v with
  | 0x00#8 => some (.shlRm8By1 f)
  | 0x01#8 => some (.shlRm16By1 f)
  | 0x02#8 => some (.shlRm32By1 f)
  | 0x03#8 => some (.shlRm64By1 f)
  | 0x04#8 => some (.shlRm8Cl f)
  | 0x05#8 => some (.shlRm16Cl f)
  | 0x06#8 => some (.shlRm32Cl f)
  | 0x07#8 => some (.shlRm64Cl f)
  | 0x08#8 => some (.shlRm8Imm8 f)
  | 0x09#8 => some (.shlRm16Imm8 f)
  | 0x0A#8 => some (.shlRm32Imm8 f)
  | 0x0B#8 => some (.shlRm64Imm8 f)
  | _ => none

/-- The 12 variants of SHR (R92). -/
def decodeShr (v : BitVec 8) (f : Fields) : Option Instr :=
  match v with
  | 0x00#8 => some (.shrRm8By1 f)
  | 0x01#8 => some (.shrRm16By1 f)
  | 0x02#8 => some (.shrRm32By1 f)
  | 0x03#8 => some (.shrRm64By1 f)
  | 0x04#8 => some (.shrRm8Cl f)
  | 0x05#8 => some (.shrRm16Cl f)
  | 0x06#8 => some (.shrRm32Cl f)
  | 0x07#8 => some (.shrRm64Cl f)
  | 0x08#8 => some (.shrRm8Imm8 f)
  | 0x09#8 => some (.shrRm16Imm8 f)
  | 0x0A#8 => some (.shrRm32Imm8 f)
  | 0x0B#8 => some (.shrRm64Imm8 f)
  | _ => none

/-- The 12 variants of SAR (R92). -/
def decodeSar (v : BitVec 8) (f : Fields) : Option Instr :=
  match v with
  | 0x00#8 => some (.sarRm8By1 f)
  | 0x01#8 => some (.sarRm16By1 f)
  | 0x02#8 => some (.sarRm32By1 f)
  | 0x03#8 => some (.sarRm64By1 f)
  | 0x04#8 => some (.sarRm8Cl f)
  | 0x05#8 => some (.sarRm16Cl f)
  | 0x06#8 => some (.sarRm32Cl f)
  | 0x07#8 => some (.sarRm64Cl f)
  | 0x08#8 => some (.sarRm8Imm8 f)
  | 0x09#8 => some (.sarRm16Imm8 f)
  | 0x0A#8 => some (.sarRm32Imm8 f)
  | 0x0B#8 => some (.sarRm64Imm8 f)
  | _ => none

/-- The 9 variants of PUSH (R93). -/
def decodePush (v : BitVec 8) (f : Fields) : Option Instr :=
  match v with
  | 0x01#8 => some (.pushR16 f)
  | 0x03#8 => some (.pushR64 f)
  | 0x02#8 => some .pushR32
  | 0x06#8 => some .pushRm32
  | 0x0A#8 => some .pushImmOpsize32
  | 0x05#8 => some .pushRm16
  | 0x07#8 => some .pushRm64
  | 0x09#8 => some .pushImmOpsize16
  | 0x0B#8 => some .pushImmOpsize64
  | _ => none

/-- The 7 variants of POP (R93). -/
def decodePop (v : BitVec 8) (f : Fields) : Option Instr :=
  match v with
  | 0x01#8 => some (.popR16 f)
  | 0x03#8 => some (.popR64 f)
  | 0x02#8 => some .popR32
  | 0x06#8 => some .popRm32
  | 0x0A#8 => some .popImmOpsize32
  | 0x05#8 => some .popRm16
  | 0x07#8 => some .popRm64
  | _ => none

/-- A row of a mnemonic's table, or the unrecognised variant (R95). -/
def orUnrecognised (id : OpcodeId) : Option Instr → Except Reject Instr
  | some i => .ok i
  | none => .error (.unrecognisedVariant id)

/-- The two-level selection of R95: mnemonic, then variant. -/
def decodeOpcode (id : OpcodeId) (f : Fields) : Except Reject Instr :=
  match id.mnemonic with
  | 0x00#8 => orUnrecognised id (decodeAdd id.variant f)
  | 0x01#8 => orUnrecognised id (decodeOr id.variant f)
  | 0x02#8 => .ok (.adc id.variant)
  | 0x03#8 => .ok (.sbb id.variant)
  | 0x04#8 => orUnrecognised id (decodeAnd id.variant f)
  | 0x05#8 => orUnrecognised id (decodeSub id.variant f)
  | 0x06#8 => orUnrecognised id (decodeXor id.variant f)
  | 0x07#8 => orUnrecognised id (decodeCmp id.variant f)
  | 0x10#8 => orUnrecognised id (decodeRol id.variant f)
  | 0x11#8 => orUnrecognised id (decodeRor id.variant f)
  | 0x12#8 => .ok (.rcl id.variant)
  | 0x13#8 => .ok (.rcr id.variant)
  | 0x14#8 => orUnrecognised id (decodeShl id.variant f)
  | 0x15#8 => orUnrecognised id (decodeShr id.variant f)
  | 0x16#8 => .ok (.sal id.variant)
  | 0x17#8 => orUnrecognised id (decodeSar id.variant f)
  | 0x20#8 => orUnrecognised id (decodePush id.variant f)
  | 0x21#8 => orUnrecognised id (decodePop id.variant f)
  | _ => .error (.noTable id)

/-- Decoding a record: the header's reserved bits first (R89, R95), then mnemonic and variant. -/
def decode (r : Record) : Except Reject Instr :=
  if r.hdr.extractLsb' 18 14 = 0 then decodeOpcode (opcodeIdOf r.hdr) (decodeFields r)
  else .error (.reservedBits (opcodeIdOf r.hdr))

/-- A record from bits numbered as the opcode table numbers them, the bits above `nbits` 0. -/
def recordOfTableWord (nbits w : Nat) : Record := BitVec.ofNat Config.recordBits (w % 2 ^ nbits)

/-- What the decoder reads from a table word. -/
def decodeTableWord (nbits w : Nat) : Option Instr := (decode (recordOfTableWord nbits w)).toOption

/-! ## Encoding -/

/-- Mnemonic ids of the engine's operations (R90). -/
def EngineOp.mnemonicId : EngineOp → BitVec 8
  | .add => 0x00
  | .or => 0x01
  | .and => 0x04
  | .sub => 0x05
  | .xor => 0x06
  | .cmp => 0x07
  | .rol => 0x10
  | .ror => 0x11
  | .shl => 0x14
  | .shr => 0x15
  | .sar => 0x17

/-- Mnemonic ids of PUSH and POP (R90). -/
def StackOp.mnemonicId : StackOp → BitVec 8
  | .push => 0x20
  | .pop => 0x21

/-- `wsel` (R91). -/
def Width.wsel : Width → BitVec 2
  | .w8 => 0
  | .w16 => 1
  | .w32 => 2
  | .w64 => 3

/-- `shape` of the two-operand group (R91). -/
def AluShape.code : AluShape → BitVec 3
  | .rmR => 0
  | .rRm => 1
  | .accImm => 2
  | .rmImm => 3
  | .rmImm8 => 4

/-- `shape` of the shift group (R92). -/
def ShiftShape.code : ShiftShape → BitVec 3
  | .rm1 => 0
  | .rmCl => 1
  | .rmImm8 => 2

/-- The variant byte `{0b000, shape, wsel}` (R91). -/
def variantByte (shape : BitVec 3) (w : Width) : BitVec 8 :=
  (0#3 ++ shape ++ w.wsel : BitVec (3 + 3 + 2))

/-- The ids of a two-operand row (R90, R91). -/
def aluId (op : EngineOp) (shape : AluShape) (w : Width) : OpcodeId :=
  ⟨op.mnemonicId, variantByte shape.code w⟩

/-- The ids of a shift row (R90, R92). -/
def shiftId (op : EngineOp) (shape : ShiftShape) (w : Width) : OpcodeId :=
  ⟨op.mnemonicId, variantByte shape.code w⟩

/-- The ids of a PUSH or POP of a register (R90, R93). -/
def stackId (op : StackOp) (w : Width) : OpcodeId := ⟨op.mnemonicId, variantByte 0 w⟩

/-- The ids of a row. -/
def Form.id : Form → OpcodeId
  | .alu2 op shape w _ => aluId op shape w
  | .shift op shape w _ => shiftId op shape w
  | .push w _ => stackId .push w
  | .pop w _ => stackId .pop w
  | .defect32 op v => ⟨op.mnemonicId, v⟩
  | .unported op v => ⟨op.mnemonicId, v⟩
  | .reserved m v => ⟨m, v⟩

/-- A slot that holds nothing: the word 0. -/
def Slot.zero : Slot := ⟨0, .reg 0 0⟩

/-- Fields whose bits are all 0, for a row that has none of its own. -/
def Fields.zero : Fields := ⟨0, .zero, .zero⟩

/-- The fields of a row. -/
def Form.fields : Form → Fields
  | .alu2 _ _ _ f => f
  | .shift _ _ _ f => f
  | .push _ f => f
  | .pop _ f => f
  | .defect32 .. => .zero
  | .unported .. => .zero
  | .reserved .. => .zero

/-- `scale_log2` (R83). -/
def Scale.log2 : Scale → BitVec 2
  | .x1 => 0
  | .x2 => 1
  | .x4 => 2
  | .x8 => 3

/-- The four-bit field of a cell index (R83). -/
def RegIdx.field (i : RegIdx) : BitVec 4 := BitVec.ofFin i

/-- The four-bit field of an optional cell, 0 when absent. -/
def optField : Option RegIdx → BitVec 4
  | some i => RegIdx.field i
  | none => 0

/-- A presence bit. -/
def presentBit (o : Option RegIdx) : BitVec 1 := if o.isSome then 1 else 0

/-- The control word `{reserved, scale_log2, index_num, index_present, base_present, wbytes, num, kind}` (R83). -/
def makeCtl (reserved : BitVec 14) (scale : BitVec 2) (index : BitVec 4) (indexPresent basePresent : BitVec 1)
    (wbytes num : BitVec 4) (kind : BitVec 2) : BitVec 32 :=
  (reserved ++ scale ++ index ++ indexPresent ++ basePresent ++ wbytes ++ num ++ kind :
    BitVec (14 + 2 + 4 + 1 + 1 + 4 + 4 + 2))

/-- The control word of a slot (R83). -/
def Slot.ctl (s : Slot) : BitVec 32 :=
  match s.desc with
  | .reg num nb => makeCtl s.reserved 0 0 0 0 nb (RegIdx.field num) 0
  | .mem base index scale _ =>
    makeCtl s.reserved scale.log2 (optField index) (presentBit index) (presentBit base) 0 (optField base) 1
  | .imm nb _ => makeCtl s.reserved 0 0 0 0 nb 0 2
  | .unrecognised => makeCtl s.reserved 0 0 0 0 0 0 3

/-- The payload of a slot (R83). -/
def Slot.pay (s : Slot) : Word :=
  match s.desc with
  | .reg _ _ => 0
  | .mem _ _ _ disp => disp
  | .imm _ pay => pay
  | .unrecognised => 0

/-- The header `{reserved, opcount, variant, mnemonic}` (R82). -/
def makeHdr (opcount : BitVec 2) (id : OpcodeId) : BitVec 32 :=
  (0#14 ++ opcount ++ id.variant ++ id.mnemonic : BitVec (14 + 2 + 8 + 8))

/-- The record of an opcode and its fields (R81). -/
def encodeFields (id : OpcodeId) (f : Fields) : Record :=
  Record.make (makeHdr f.opcount id) f.slot0.ctl f.slot0.pay f.slot1.ctl f.slot1.pay

/-- The record of an instruction. -/
def encode (i : Instr) : Record := encodeFields i.form.id i.form.fields

end Sys2Proof
end

