-- ==== Sys2Proof/Machine/State.lean ====
section
/-! DEFINITION. The state (10_state.md rule R20: the instance; 60_exceptions.md rule R195: the run loop), the error
values (60_exceptions.md rules R180, R181), the two reason types of the host's interface, and the state after reset
(10_state.md rule R40). -/

namespace Sys2Proof.Machine

/-- `mem` and `init` together (R35): an address is listed exactly when its `init` bit is 1, and the byte beside it is
`mem` there (log 4). Canonical form: addresses strictly rising and below 2^64 (`Memory.wf`, Machine/Ops.lean). -/
abbrev Memory := List Host.Cell

/-- `status` (R36). -/
inductive Status where
  | running | aborted
  deriving DecidableEq, Repr

/-- What an UninitializedAccess was (R181); `initRegion` is the host call of R52 (log 15). -/
inductive Access where
  | read | write | initRegion
  deriving DecidableEq, Repr

/-- Which invariant a defect names (R181). -/
inductive Invariant where
  | reservedBits | unrecognisedVariant | stack32Bit | operandCount | operandShape | operandSize | immediateDestination
  deriving DecidableEq, Repr

/-- An error value with what it records (R181). -/
inductive Error where
  /-- Access address, byte count, read or write (R182). -/
  | uninitializedAccess (addr : Word) (n : Nat) (access : Access)
  /-- Operand index and the record's ids (R183). -/
  | unsupportedOperandKind (k : Nat) (id : OpcodeId)
  /-- Requested width in bits (R184). -/
  | registerWidth (bits : Nat)
  /-- The record's ids (R185). -/
  | unimplementedOpcode (id : OpcodeId)
  /-- The invariant and the record's ids (R186). -/
  | defect (which : Invariant) (id : OpcodeId)
  /-- The emulated program has finished; raised by no instruction in scope (R188). -/
  | normalTermination
  deriving DecidableEq, Repr

/-- The four categories of R180. -/
inductive Category where
  | recoverable | unimplemented | defect | normalTermination
  deriving DecidableEq, Repr

/-- Where the caller's run stands (R195, R196). -/
inductive RunState where
  /-- No stream has been issued since reset. -/
  | idle
  /-- The loop is executing the stream. -/
  | active
  /-- `Completed(k)`. -/
  | completed (k : Nat)
  /-- `Stopped(i, e)`. -/
  | stopped (i : Nat) (e : Error)
  deriving DecidableEq, Repr

/-- Why a step has no next state. -/
inductive Fault where
  /-- Raised by every meaning, by `step` and by every host call when `status` is Aborted: an aborted instance has no
  step (R36, R192, U23). Safe. -/
  | aborted
  deriving DecidableEq, Repr

/-- Why a request has no meaning. -/
inductive Refusal where
  /-- Raised by `exec` for an instruction that has no meaning yet. No arm uses it. Safe. -/
  | notModelled (mnemonic : String)
  /-- Raised by the host calls MemRead and MemWrite for a byte count outside 1, 2, 4, 8 (R53, U22). Safe. -/
  | hostAccessWidth (n : Nat)
  /-- Raised by the host call that writes FLAGS while a run is going on: the spec lets the host write FLAGS before a
  run only (R42, D28; log 12). Safe. -/
  | hostFlagsWriteDuringRun
  /-- Raised by the host calls that start or resume a run while one is going on (R195; log 11). Safe. -/
  | hostRunGoingOn
  /-- Raised by the host call that resumes a run when none has stopped (R191; log 11). Safe. -/
  | hostNothingToResume
  deriving DecidableEq, Repr

/-- The state. The first four fields are the instance of R20; the others are the run loop's (R195) and its caller's
arguments (R5), which R20 says are not state of the instance (log 1). -/
structure State where
  /-- `x[0] .. x[15]` (R21). -/
  regs : Vector Word Config.cellCount
  /-- `FLAGS` (R31, R34). -/
  flags : Word
  /-- `mem` and `init` (R35). -/
  mem : Memory
  /-- `status` (R36). -/
  status : Status
  /-- The records not yet executed, the next one first (R195). -/
  stream : List Record
  /-- The loop's `i` (R195). -/
  index : Nat
  /-- What the last record returned to the loop: nothing, or one error value (R190, R195). -/
  raised : Option Error
  /-- Where the run stands (R195, R196). -/
  run : RunState
  /-- The model argument `SKIP_UNIMPLEMENTED` (R5, R195). -/
  skipUnimplemented : Bool
  /-- The model argument `HOSTED` (R5, R192). -/
  hosted : Bool
  deriving DecidableEq, Repr

/-- The state after reset (R40, R210): cells 0, FLAGS 0, no byte initialised, Running; no stream issued (log 2),
`SKIP_UNIMPLEMENTED` at its default, `HOSTED` false (DESIGN CHOICE, log 8). -/
def State.reset : State where
  regs := Vector.replicate Config.cellCount 0
  flags := 0
  mem := []
  status := .running
  stream := []
  index := 0
  raised := none
  run := .idle
  skipUnimplemented := Config.skipUnimplementedDefault
  hosted := false

end Sys2Proof.Machine
end

