-- ==== Sys2Proof/Machine/Ops.lean ====
section
/-! DEFINITION. The named operations over registers and memory (10_state.md rules R23 to R27, 20_memory.md rules R52 to
R57), taking an error and delivering a handler's outcome (60_exceptions.md rules R187, R190, R192). -/

namespace Sys2Proof.Machine

/-! ## Errors -/

/-- The numeric code (R181). -/
def Error.code : Error → Nat
  | .uninitializedAccess .. => 1
  | .unsupportedOperandKind .. => 2
  | .registerWidth .. => 3
  | .unimplementedOpcode .. => 4
  | .defect .. => 5
  | .normalTermination => 6

/-- The category (R180, R181). -/
def Error.category : Error → Category
  | .uninitializedAccess .. => .recoverable
  | .unsupportedOperandKind .. => .recoverable
  | .registerWidth .. => .recoverable
  | .unimplementedOpcode .. => .unimplemented
  | .defect .. => .defect
  | .normalTermination => .normalTermination

/-- `status` after an error: a defect aborts the instance, no other error does (R36, R191, R192). -/
def Error.statusAfter (e : Error) (now : Status) : Status :=
  match e.category with
  | .defect => .aborted
  | .recoverable => now
  | .unimplemented => now
  | .normalTermination => now

/-- TAKING AN ERROR (R187, R190, R192), the one operation every instruction that raises goes through: no cell, flag,
memory byte or `init` bit changes, the error value is returned to the caller, and a defect aborts the instance. There
is no vector, no saved register and no mode to change (R190). -/
def State.raise (e : Error) (s : State) : State :=
  { s with raised := some e, status := e.statusAfter s.status }

/-- A successful outcome: nothing is returned to the caller but success (R190). -/
def State.succeed (s : State) : State := { s with raised := none }

/-- A handler's outcome as a step of the machine: its state, or the error taken. An Aborted instance executes
nothing (R36). -/
def deliver (s : State) (outcome : Except Error State) : Host.Outcome State Fault Refusal :=
  match s.status with
  | .aborted => .fault .aborted
  | .running =>
    match outcome with
    | .ok t => .next t.succeed
    | .error e => .next (s.raise e)

/-- `assert c else raise e` (R7). -/
def check (c : Bool) (e : Error) : Except Error Unit := if c then .ok () else .error e

/-- A decoder's rejection as the error dispatch raises (R89, R95). -/
def rejectError : Reject → Error
  | .reservedBits id => .defect .reservedBits id
  | .noTable id => .unimplementedOpcode id
  | .unrecognisedVariant id => .defect .unrecognisedVariant id

/-! ## Registers -/

/-- The width that a number of bits names, if it names one (R27). -/
def widthOfBits (n : Nat) : Option Width :=
  if n = 8 then some .w8 else if n = 16 then some .w16 else if n = 32 then some .w32
  else if n = 64 then some .w64 else none

/-- The width that a number of bytes names, if it names one (R53, R84, R86). -/
def widthOfBytes (n : Nat) : Option Width :=
  if n = 1 then some .w8 else if n = 2 then some .w16 else if n = 4 then some .w32
  else if n = 8 then some .w64 else none

/-- The low W bits of a value, zero-extended (R6). -/
def lowBits (w : Width) (v : Word) : Word :=
  match w with
  | .w8 => (v.extractLsb' 0 8).setWidth 64
  | .w16 => (v.extractLsb' 0 16).setWidth 64
  | .w32 => (v.extractLsb' 0 32).setWidth 64
  | .w64 => v

/-- `x[i]` (R7). -/
def State.reg (s : State) (i : RegIdx) : Word := s.regs[i.val]

/-- `x[i] <- v` (R7). -/
def State.setReg (s : State) (i : RegIdx) (v : Word) : State := { s with regs := s.regs.set i.val v }

/-- `RegRead(i, W)`, zero-extended to a word (R23). -/
def State.regRead (s : State) (i : RegIdx) (w : Width) : Word := lowBits w (s.reg i)

/-- A cell after a write of its low view: 8 and 16 bits keep the bits above (R24), 32 bits clear them (R25), 64 bits
replace the cell (R26). -/
def writeView (w : Width) (old v : Word) : Word :=
  match w with
  | .w8 => (old.extractLsb' 8 56 ++ v.extractLsb' 0 8 : BitVec (56 + 8))
  | .w16 => (old.extractLsb' 16 48 ++ v.extractLsb' 0 16 : BitVec (48 + 16))
  | .w32 => (v.extractLsb' 0 32).setWidth 64
  | .w64 => v

/-- `RegWrite(i, W, v)` (R24 to R26). -/
def State.regWrite (s : State) (i : RegIdx) (w : Width) (v : Word) : State :=
  s.setReg i (writeView w (s.reg i) v)

/-! ## Memory -/

/-- What an address that is not listed reads as: nothing, its byte is not initialised (R35; log 4). -/
def Memory.unlisted : Option Byte := none

/-- The byte at an address, or nothing where it is not initialised (R35). -/
def Memory.read : Memory → Nat → Option Byte
  | [], _ => Memory.unlisted
  | (b, v) :: m, a => if a = b then some v else Memory.read m a

/-- `init[a] = 1` (R35). -/
def Memory.isInit (m : Memory) (a : Nat) : Bool := (Memory.read m a).isSome

/-- The byte at an address set to `v`; the address is initialised afterwards. Keeps the list sorted. -/
def Memory.insert : Memory → Nat → Byte → Memory
  | [], a, v => [(a, v)]
  | (b, u) :: m, a, v =>
    if a < b then (a, v) :: (b, u) :: m
    else if a = b then (a, v) :: m
    else (b, u) :: Memory.insert m a v

/-- Every address of the list lies above `a`. -/
def Memory.above (a : Nat) : Memory → Bool
  | [] => true
  | (b, _) :: m => decide (a < b) && Memory.above a m

/-- The canonical form: addresses strictly rising and inside the address space (R35, R50). -/
def Memory.wf : Memory → Bool
  | [] => true
  | (a, _) :: m => decide (a < Config.addressSpace) && Memory.above a m && Memory.wf m

/-- Every byte of [a, a + n) is initialised (R54, R55). -/
def Memory.allInit (m : Memory) (a : Nat) : Nat → Bool
  | 0 => true
  | n + 1 => m.isInit a && Memory.allInit m (a + 1) n

/-- The sum of R54: the byte at the lowest address is the least significant. A byte that is not initialised counts
as 0 here; `memRead` reads none. -/
def Memory.readLE (m : Memory) (a : Nat) : Nat → Nat
  | 0 => 0
  | n + 1 => ((Memory.read m a).getD 0).toNat + 2 ^ 8 * Memory.readLE m (a + 1) n

/-- The loop of R55: byte k of `v` goes to address a + k. -/
def Memory.writeLE (m : Memory) (a : Nat) (v : Nat) : Nat → Memory
  | 0 => m
  | n + 1 => Memory.writeLE (m.insert a (BitVec.ofNat 8 v)) (a + 1) (v / 2 ^ 8) n

/-- The loop of R52: the bytes [a, a + n) become initialised and 0. -/
def Memory.zeroFill (m : Memory) (a : Nat) : Nat → Memory
  | 0 => m
  | n + 1 => Memory.zeroFill (m.insert a 0) (a + 1) n

/-- An access of `n` bytes at `addr` is inside the address space and wholly initialised (R54, R55, R57). -/
def Memory.accessible (m : Memory) (addr : Word) (n : Nat) : Bool :=
  decide (addr.toNat + n ≤ Config.addressSpace) && m.allInit addr.toNat n

/-- `MemRead(addr, n)` with n = W / 8 (R53, R54). -/
def State.memRead (s : State) (addr : Word) (w : Width) : Except Error Word :=
  if s.mem.accessible addr w.bytes then .ok (BitVec.ofNat 64 (s.mem.readLE addr.toNat w.bytes))
  else .error (.uninitializedAccess addr w.bytes .read)

/-- `MemWrite(addr, n, v)` with n = W / 8 (R53, R55). -/
def State.memWrite (s : State) (addr : Word) (w : Width) (v : Word) : Except Error State :=
  if s.mem.accessible addr w.bytes then
    .ok { s with mem := s.mem.writeLE addr.toNat v.toNat w.bytes }
  else .error (.uninitializedAccess addr w.bytes .write)

/-- `init_region(address, length)` (R52). -/
def State.initRegion (s : State) (addr : Word) (length : Nat) : Except Error State :=
  if addr.toNat + length ≤ Config.addressSpace then
    .ok { s with mem := s.mem.zeroFill addr.toNat length }
  else .error (.uninitializedAccess addr length .initRegion)

end Sys2Proof.Machine
end

