-- ==== Sys2Proof/Machine/Flags.lean ====
section
/-! DEFINITION. The six flags, their definitions and the flag merge (10_state.md rule R31, 40_flag_engine.md rules R112
to R121). As in the spec, every formula is on unbounded integers with an explicit `trunc` (00_scope.md rule R7). -/

namespace Sys2Proof.Machine

/-- `trunc_N(v) = v mod 2^N`, for negative `v` too (R7). -/
def trunc (n : Nat) (v : Int) : Nat := (v % (2 ^ n : Nat)).toNat

/-- `sint_W(v)`, the two's-complement reading (R6). -/
def sint (n : Nat) (v : Nat) : Int := if v.testBit (n - 1) then (v : Int) - (2 ^ n : Nat) else v

/-- The six flags (R31). -/
inductive Flag where
  | cf | pf | af | zf | sf | of
  deriving DecidableEq, Repr

/-- The bit of FLAGS (R31). -/
def Flag.bit : Flag → Nat
  | .cf => 0
  | .pf => 2
  | .af => 4
  | .zf => 6
  | .sf => 7
  | .of => 11

/-- The mask of one flag (R31). -/
def Flag.mask (f : Flag) : Word := 1#64 <<< f.bit

/-- `ALL6` (R31). -/
def all6 : Word := 0x08D5

/-- A flag as a set: itself when the condition holds, empty otherwise (R8). -/
def Flag.onlyIf (f : Flag) (c : Bool) : Word := if c then f.mask else 0

/-- One flag of the state (R31). -/
def State.flag (s : State) (f : Flag) : Bool := s.flags.getLsbD f.bit

/-- Sign flag (R112). -/
def signFlag (r n : Nat) : Bool := r.testBit (n - 1)

/-- Zero flag (R113). -/
def zeroFlag (r : Nat) : Bool := r == 0

/-- `popcount(v)` of the low `n` bits (R7). -/
def popcount (v : Nat) : Nat → Nat
  | 0 => 0
  | n + 1 => popcount v n + (v.testBit n).toNat

/-- Parity flag: an even number of 1 bits in the low byte (R114). -/
def parityFlag (r : Nat) : Bool := popcount r 8 % 2 == 0

/-- Carry of an addition (R115). -/
def carryAdd (d s n : Nat) : Bool := (d + s).testBit n

/-- Carry of a subtraction, the borrow (R116). -/
def carrySub (d s n : Nat) : Bool := (trunc (2 * n) ((d : Int) - s)).testBit n

/-- Overflow of an addition (R117, C3). -/
def overflowAdd (d s r n : Nat) : Bool :=
  d.testBit (n - 1) == s.testBit (n - 1) && r.testBit (n - 1) != d.testBit (n - 1)

/-- Overflow of a subtraction (R118). -/
def overflowSub (d s r n : Nat) : Bool :=
  d.testBit (n - 1) != s.testBit (n - 1) && r.testBit (n - 1) != d.testBit (n - 1)

/-- Auxiliary carry of an addition (R119). -/
def auxAdd (d s : Nat) : Bool := (d % 16 + s % 16).testBit 4

/-- Auxiliary carry of a subtraction, the borrow into bit 3 (R120, C6). -/
def auxSub (d s : Nat) : Bool := (trunc 8 (((d % 16 : Nat) : Int) - ((s % 16 : Nat) : Int))).testBit 4

/-- `SZP(r, W)`: SF, ZF and PF of a result as a set. -/
def szp (r n : Nat) : Word :=
  Flag.sf.onlyIf (signFlag r n) ||| Flag.zf.onlyIf (zeroFlag r) ||| Flag.pf.onlyIf (parityFlag r)

/-- The merge of R121 on the flags word. -/
def mergeFlags (flags defMask setMask : Word) : Word := (flags &&& ~~~defMask) ||| setMask

/-- The merge of R121, the last step of a handler. -/
def State.mergeFlags (s : State) (defMask setMask : Word) : State :=
  { s with flags := Machine.mergeFlags s.flags defMask setMask }

end Sys2Proof.Machine
end

