-- ==== Sys2Proof/Machine/Engine.lean ====
section
/-! DEFINITION. The engine `AFE(op, W, d, s) -> (result, wb, def, set)` (40_flag_engine.md rule R110), operation by
operation (41_add_sub_cmp.md, 42_logical.md, 43_shift_rotate.md), and its command word (30_encoding.md rule R98). It
reads no state (rule R124) and raises nothing (rule R111). -/

namespace Sys2Proof.Machine

/-- The engine's outputs (R98, R110). -/
structure EngineOut where
  result : Word
  wb : Bool
  defMask : Word
  setMask : Word
  deriving DecidableEq, Repr

/-- The flags the logical operations write (R140 to R142). -/
def logicDef : Word :=
  Flag.cf.mask ||| Flag.pf.mask ||| Flag.zf.mask ||| Flag.sf.mask ||| Flag.of.mask

/-- The flags every shift by at least one writes (R151 to R153). -/
def szpDef : Word := Flag.pf.mask ||| Flag.zf.mask ||| Flag.sf.mask

/-- ADD (R130). -/
def afeAdd (n d s : Nat) : EngineOut :=
  let r := trunc n (d + s)
  { result := BitVec.ofNat 64 r
    wb := true
    defMask := all6
    setMask := szp r n ||| Flag.cf.onlyIf (carryAdd d s n) ||| Flag.of.onlyIf (overflowAdd d s r n)
      ||| Flag.af.onlyIf (auxAdd d s) }

/-- SUB (R131). -/
def afeSub (n d s : Nat) : EngineOut :=
  let r := trunc n ((d : Int) - s)
  { result := BitVec.ofNat 64 r
    wb := true
    defMask := all6
    setMask := szp r n ||| Flag.cf.onlyIf (carrySub d s n) ||| Flag.of.onlyIf (overflowSub d s r n)
      ||| Flag.af.onlyIf (auxSub d s) }

/-- CMP: SUB without the write-back (R132). -/
def afeCmp (n d s : Nat) : EngineOut := { afeSub n d s with wb := false }

/-- A logical operation with result `r` (R140 to R142). -/
def afeLogic (n r : Nat) : EngineOut :=
  { result := BitVec.ofNat 64 r, wb := true, defMask := logicDef, setMask := szp r n }

/-- The effective count (R150). -/
def maskedCount (n craw : Nat) : Nat := if n = 64 then craw &&& 0x3F else craw &&& 0x1F

/-- A zero count: the value is written back and no flag is written (R156). -/
def afeZeroCount (d : Nat) : EngineOut :=
  { result := BitVec.ofNat 64 d, wb := true, defMask := 0, setMask := 0 }

/-- SHL by `c >= 1` (R151). -/
def afeShl (n d c : Nat) : EngineOut :=
  let r := trunc n (d <<< c : Nat)
  { result := BitVec.ofNat 64 r
    wb := true
    defMask := szpDef ||| Flag.cf.onlyIf (decide (c < n)) ||| Flag.of.onlyIf (decide (c = 1))
    setMask := szp r n ||| Flag.cf.onlyIf (decide (c < n) && d.testBit (n - c))
      ||| Flag.of.onlyIf (decide (c = 1) && r.testBit (n - 1) != d.testBit (n - 1)) }

/-- SHR by `c >= 1` (R152). -/
def afeShr (n d c : Nat) : EngineOut :=
  let r := d >>> c
  { result := BitVec.ofNat 64 r
    wb := true
    defMask := szpDef ||| Flag.cf.onlyIf (decide (c < n)) ||| Flag.of.onlyIf (decide (c = 1))
    setMask := szp r n ||| Flag.cf.onlyIf (decide (c < n) && d.testBit (c - 1))
      ||| Flag.of.onlyIf (decide (c = 1) && d.testBit (n - 1)) }

/-- SAR by `c >= 1` (R153); `/` on Int rounds toward minus infinity for a positive divisor. -/
def afeSar (n d c : Nat) : EngineOut :=
  let r := trunc n (sint n d / (2 ^ c : Nat))
  { result := BitVec.ofNat 64 r
    wb := true
    defMask := szpDef ||| Flag.cf.mask ||| Flag.of.onlyIf (decide (c = 1))
    setMask := szp r n ||| Flag.cf.onlyIf (d.testBit (min (c - 1) (n - 1))) }

/-- ROL by `c >= 1` (R154). -/
def afeRol (n d c : Nat) : EngineOut :=
  let k := c % n
  let r := if k > 0 then trunc n (d <<< k : Nat) ||| d >>> (n - k) else d
  { result := BitVec.ofNat 64 r
    wb := true
    defMask := Flag.cf.mask ||| Flag.of.onlyIf (decide (c = 1))
    setMask := Flag.cf.onlyIf (r.testBit 0)
      ||| Flag.of.onlyIf (decide (c = 1) && r.testBit (n - 1) != r.testBit 0) }

/-- ROR by `c >= 1` (R155). -/
def afeRor (n d c : Nat) : EngineOut :=
  let k := c % n
  let r := if k > 0 then d >>> k ||| trunc n (d <<< (n - k) : Nat) else d
  { result := BitVec.ofNat 64 r
    wb := true
    defMask := Flag.cf.mask ||| Flag.of.onlyIf (decide (c = 1))
    setMask := Flag.cf.onlyIf (r.testBit (n - 1))
      ||| Flag.of.onlyIf (decide (c = 1) && r.testBit (n - 1) != r.testBit (n - 2)) }

/-- A shift or rotate: the zero count first, then the operation (R150, R156). -/
def afeCounted (shift : Nat → Nat → Nat → EngineOut) (n d craw : Nat) : EngineOut :=
  if maskedCount n craw = 0 then afeZeroCount d else shift n d (maskedCount n craw)

/-- The engine (R110): only the low W bits of `d` and `s` are used, for a shift or rotate the low 8 bits of `s`. -/
def afe (op : EngineOp) (w : Width) (d s : Word) : EngineOut :=
  let n := w.bits
  let a := (lowBits w d).toNat
  let b := (lowBits w s).toNat
  let craw := (lowBits .w8 s).toNat
  match op with
  | .add => afeAdd n a b
  | .or => afeLogic n (a ||| b)
  | .and => afeLogic n (a &&& b)
  | .sub => afeSub n a b
  | .xor => afeLogic n (a ^^^ b)
  | .cmp => afeCmp n a b
  | .rol => afeCounted afeRol n a craw
  | .ror => afeCounted afeRor n a craw
  | .shl => afeCounted afeShl n a craw
  | .shr => afeCounted afeShr n a craw
  | .sar => afeCounted afeSar n a craw

/-! ## The command word (R98) -/

/-- `op` of an operation (R98). -/
def opBits : EngineOp → BitVec 4
  | .add => 0
  | .or => 1
  | .and => 4
  | .sub => 5
  | .xor => 6
  | .cmp => 7
  | .rol => 8
  | .ror => 9
  | .shl => 12
  | .shr => 13
  | .sar => 15

/-- The operation an `op` selects; the engine is not defined for 2, 3, 10, 11, 14 (R98, U21; log 13). -/
def opOfBits (b : BitVec 4) : Option EngineOp :=
  match b with
  | 0#4 => some .add
  | 1#4 => some .or
  | 4#4 => some .and
  | 5#4 => some .sub
  | 6#4 => some .xor
  | 7#4 => some .cmp
  | 8#4 => some .rol
  | 9#4 => some .ror
  | 12#4 => some .shl
  | 13#4 => some .shr
  | 15#4 => some .sar
  | _ => none

/-- The width a `wsel` selects (R91, R98). -/
def widthOfSel (b : BitVec 2) : Width :=
  if b = 0 then .w8 else if b = 1 then .w16 else if b = 2 then .w32 else .w64

/-- The command word of an operation at a width: `op` in bits 3 to 0, `wsel` in bits 5 and 4 (R98). -/
def engineCmd (op : EngineOp) (w : Width) : BitVec 6 := (w.wsel ++ opBits op : BitVec (2 + 4))

/-- The engine behind its ports (R98): the outputs for a command word and two buses. -/
def enginePort (cmd : BitVec 6) (d s : Word) : Option EngineOut :=
  (opOfBits (cmd.extractLsb' 0 4)).map fun op => afe op (widthOfSel (cmd.extractLsb' 4 2)) d s

end Sys2Proof.Machine
end

