-- ==== Sys2Proof/Machine/Operands.lean ====
section
/-! DEFINITION. Operands: the effective address (20_memory.md rule R62), resolving a descriptor (30_encoding.md rules
R84 to R88), reading and writing a resolved operand (20_memory.md rules R66, R67; 30_encoding.md rule R94). -/

namespace Sys2Proof.Machine

/-- A resolved operand (R9, R83). A Memory operand keeps its effective address only (R85); an Immediate holds its
value and its declared width (R86). -/
inductive Operand where
  | reg (i : RegIdx) (w : Width)
  | mem (ea : Word)
  | imm (v : Word) (nb : Width)
  deriving DecidableEq, Repr

/-- The value a memory operand takes from an optional cell (R62, R65). -/
def State.optReg (s : State) : Option RegIdx → Nat
  | some i => (s.reg i).toNat
  | none => 0

/-- The effective address, `trunc_64(base + index * scale + disp)` (R62, R85). -/
def State.effectiveAddress (s : State) (base index : Option RegIdx) (scale : Scale) (disp : Word) : Word :=
  BitVec.ofNat 64 (s.optReg base + s.optReg index * scale.factor + disp.toNat)

/-- `Resolve(rec, k)` on slot k's descriptor (R84 to R88). It reads registers and writes nothing (R74). -/
def State.resolve (s : State) (id : OpcodeId) (k : Nat) : Desc → Except Error Operand
  | .reg num nb =>
    match widthOfBytes nb.toNat with
    | some w => .ok (.reg num w)
    | none => .error (.registerWidth (8 * nb.toNat))
  | .mem base index scale disp => .ok (.mem (s.effectiveAddress base index scale disp))
  | .imm nb pay =>
    match widthOfBytes nb.toNat with
    | some w => .ok (.imm (lowBits w pay) w)
    | none => .error (.unsupportedOperandKind k id)
  | .unrecognised => .error (.unsupportedOperandKind k id)

/-- `sext_64` of a value of width `nb` (R7, R94); the engine uses the low W bits of it. -/
def signExtend (nb : Width) (v : Word) : Word :=
  match nb with
  | .w8 => (v.extractLsb' 0 8).signExtend 64
  | .w16 => (v.extractLsb' 0 16).signExtend 64
  | .w32 => (v.extractLsb' 0 32).signExtend 64
  | .w64 => v

/-- `OpRead(opnd, W)` (R66), and `SrcValue(opnd, W)` (R94): an immediate is sign-extended to W. -/
def State.opRead (s : State) (id : OpcodeId) (o : Operand) (w : Width) : Except Error Word :=
  match o with
  | .reg i wr => if wr = w then .ok (s.regRead i w) else .error (.defect .operandSize id)
  | .mem ea => s.memRead ea w
  | .imm v nb => .ok (lowBits w (signExtend nb v))

/-- `OpWrite(opnd, W, v)` (R67). -/
def State.opWrite (s : State) (id : OpcodeId) (o : Operand) (w : Width) (v : Word) : Except Error State :=
  match o with
  | .reg i wr => if wr = w then .ok (s.regWrite i w v) else .error (.defect .operandSize id)
  | .mem ea => s.memWrite ea w v
  | .imm _ _ => .error (.defect .immediateDestination id)

/-- `Register(_, W)`. -/
def Operand.isReg (w : Width) : Operand → Bool
  | .reg _ wr => wr == w
  | _ => false

/-- `Register(_, W)` or Memory. -/
def Operand.isRegOrMem (w : Width) : Operand → Bool
  | .reg _ wr => wr == w
  | .mem _ => true
  | .imm _ _ => false

/-- `Register(i, W)`. -/
def Operand.isFixedReg (i : RegIdx) (w : Width) : Operand → Bool
  | .reg j wr => j == i && wr == w
  | _ => false

/-- `Immediate(_, n)`. -/
def Operand.isImm (n : Nat) : Operand → Bool
  | .imm _ nb => nb.bytes == n
  | _ => false

/-- `nb(W)` of R122: the immediate's bytes of `acc_imm` and `rm_imm`. -/
def immBytes : Width → Nat
  | .w8 => 1
  | .w16 => 2
  | .w32 => 4
  | .w64 => 4

/-- `Fits2(shape, W, dst, src)` (R122). -/
def fits2 (shape : AluShape) (w : Width) (dst src : Operand) : Bool :=
  match shape with
  | .rmR => dst.isRegOrMem w && src.isReg w
  | .rRm => dst.isReg w && src.isRegOrMem w
  | .accImm => dst.isFixedReg .rax w && src.isImm (immBytes w)
  | .rmImm => dst.isRegOrMem w && src.isImm (immBytes w)
  | .rmImm8 => dst.isRegOrMem w && src.isImm 1

end Sys2Proof.Machine
end

