-- ==== Sys2Proof/Machine/Templates.lean ====
section
/-! DEFINITION. The handler templates: `Exec2` (40_flag_engine.md rule R122), `ExecShift` (40_flag_engine.md rule R123),
PUSH and POP (44_stack.md rules R170, R171), in the order of checks of 60_exceptions.md rule R189. Each gives the state
after success or the error it raises; an error leaves no trace (rule R187) because the state it saw is thrown away. -/

namespace Sys2Proof.Machine

/-- `assert ctlk[31:18] = 0 else raise Defect("reserved bits")` (R89). -/
def checkReserved (id : OpcodeId) (slot : Slot) : Except Error Unit :=
  check (slot.reserved == 0) (.defect .reservedBits id)

/-- The engine's result written back, if `wb`, then the flags merged (R121, R122, R123). -/
def State.commit (s : State) (id : OpcodeId) (dst : Operand) (w : Width) (out : EngineOut) : Except Error State :=
  if out.wb then
    (s.opWrite id dst w out.result).map fun t => t.mergeFlags out.defMask out.setMask
  else .ok (s.mergeFlags out.defMask out.setMask)

/-- `Exec2(rec, op)` (R122). -/
def exec2 (op : EngineOp) (shape : AluShape) (w : Width) (f : Fields) (s : State) : Except Error State := do
  let id := aluId op shape w
  check (f.opcount == 2) (.defect .operandCount id)
  checkReserved id f.slot0
  checkReserved id f.slot1
  let dst ← s.resolve id 0 f.slot0.desc
  let src ← s.resolve id 1 f.slot1.desc
  check (fits2 shape w dst src) (.defect .operandShape id)
  let a ← s.opRead id dst w
  let b ← s.opRead id src w
  s.commit id dst w (afe op w a b)

/-- The count operand of `rm_CL`: it must be CL (R123). -/
def State.clCount (s : State) (id : OpcodeId) (cnt : Operand) : Except Error Word :=
  if cnt.isFixedReg .rcx .w8 then .ok (s.regRead .rcx .w8) else .error (.defect .operandShape id)

/-- The count operand of `rm_imm8`: it must be an immediate of one byte, read as unsigned (R94, R123). -/
def immCount (id : OpcodeId) (cnt : Operand) : Except Error Word :=
  match cnt with
  | .imm v nb => if nb = .w8 then .ok v else .error (.defect .operandShape id)
  | .reg _ _ => .error (.defect .operandShape id)
  | .mem _ => .error (.defect .operandShape id)

/-- The operands of `rm_1`: operand 0 only, slot 1 being ignored, and the raw count 1 (R82, R123). -/
def State.oneOperand (s : State) (id : OpcodeId) (w : Width) (f : Fields) : Except Error (Operand × Word) := do
  check (f.opcount == 1) (.defect .operandCount id)
  checkReserved id f.slot0
  let dst ← s.resolve id 0 f.slot0.desc
  check (dst.isRegOrMem w) (.defect .operandShape id)
  .ok (dst, 1)

/-- The operands of `rm_CL` and `rm_imm8`: destination and raw count, both resolved before either shape is checked (R123). -/
def State.countedOperands (s : State) (id : OpcodeId) (w : Width) (f : Fields)
    (rawCount : Operand → Except Error Word) : Except Error (Operand × Word) := do
  check (f.opcount == 2) (.defect .operandCount id)
  checkReserved id f.slot0
  checkReserved id f.slot1
  let dst ← s.resolve id 0 f.slot0.desc
  let cnt ← s.resolve id 1 f.slot1.desc
  check (dst.isRegOrMem w) (.defect .operandShape id)
  let craw ← rawCount cnt
  .ok (dst, craw)

/-- The destination and the raw count of a shift (R123). -/
def State.shiftOperands (s : State) (id : OpcodeId) (shape : ShiftShape) (w : Width) (f : Fields) :
    Except Error (Operand × Word) :=
  match shape with
  | .rm1 => s.oneOperand id w f
  | .rmCl => s.countedOperands id w f (s.clCount id)
  | .rmImm8 => s.countedOperands id w f (immCount id)

/-- `ExecShift(rec, op)` (R123). -/
def execShift (op : EngineOp) (shape : ShiftShape) (w : Width) (f : Fields) (s : State) : Except Error State := do
  let id := shiftId op shape w
  let (dst, craw) ← s.shiftOperands id shape w f
  let a ← s.opRead id dst w
  s.commit id dst w (afe op w a craw)

/-- The register operand of PUSH and POP, with its checks (R170, R171). -/
def State.stackOperand (s : State) (id : OpcodeId) (w : Width) (f : Fields) : Except Error Operand := do
  check (f.opcount == 1) (.defect .operandCount id)
  checkReserved id f.slot0
  let o ← s.resolve id 0 f.slot0.desc
  check (o.isReg w) (.defect .operandShape id)
  .ok o

/-- The stack pointer after a push of W: `trunc_64(x[4] - n)` (R170). -/
def State.pushAddress (s : State) (w : Width) : Word := s.reg .rsp - BitVec.ofNat 64 w.bytes

/-- The stack pointer after a pop of W: `trunc_64(x[4] + n)` (R171). -/
def State.popAddress (s : State) (w : Width) : Word := s.reg .rsp + BitVec.ofNat 64 w.bytes

/-- `PUSH(rec)` (R170): the operand is read before the stack pointer moves. -/
def pushHandler (w : Width) (f : Fields) (s : State) : Except Error State := do
  let id := stackId .push w
  let src ← s.stackOperand id w f
  let v ← s.opRead id src w
  let t ← s.memWrite (s.pushAddress w) w v
  .ok (t.setReg .rsp (s.pushAddress w))

/-- `POP(rec)` (R171, C1, C9): the read is at the old stack pointer and the register write comes last. -/
def popHandler (w : Width) (f : Fields) (s : State) : Except Error State := do
  let id := stackId .pop w
  let dst ← s.stackOperand id w f
  let v ← s.memRead (s.reg .rsp) w
  (s.setReg .rsp (s.popAddress w)).opWrite id dst w v

end Sys2Proof.Machine
end

