-- ==== Sys2Proof/Machine/HostOps.lean ====
section
/-! DEFINITION. What the host may do between instructions (10_state.md rule R42): the register and memory contracts,
init_region, FLAGS, starting a run (60_exceptions.md rule R195) and issuing the failed record again (rule R191). No step
calls these: a State is always between two instructions, where the host may act (20_memory.md rule R71). -/

namespace Sys2Proof.Machine

/-- The answer to a host call. -/
inductive HostReply (α : Type) where
  /-- The call's value and the state after it. -/
  | ok (value : α) (s : State)
  /-- The error returned to the host; the call changes nothing (R42, R190). -/
  | error (e : Error)
  /-- An Aborted instance: no host call has a meaning (R36, R192). -/
  | stuck (f : Fault)
  /-- A call outside the contract. -/
  | refused (r : Refusal)
  deriving DecidableEq, Repr

/-- A host call has a meaning on a Running instance only (R36, R192). -/
def hostCall {α : Type} (s : State) (reply : HostReply α) : HostReply α :=
  match s.status with
  | .aborted => .stuck .aborted
  | .running => reply

/-- Host `RegRead(i, W)` with any number of bits W (R23, R27). -/
def hostRegRead (i : RegIdx) (bits : Nat) (s : State) : HostReply Word :=
  hostCall s <|
    match widthOfBits bits with
    | some w => .ok (s.regRead i w) s
    | none => .error (.registerWidth bits)

/-- Host `RegWrite(i, W, v)` (R24 to R27). -/
def hostRegWrite (i : RegIdx) (bits : Nat) (v : Word) (s : State) : HostReply Unit :=
  hostCall s <|
    match widthOfBits bits with
    | some w => .ok () (s.regWrite i w v)
    | none => .error (.registerWidth bits)

/-- Host `init_region(address, length)` (R52). -/
def hostInitRegion (addr : Word) (length : Nat) (s : State) : HostReply Unit :=
  hostCall s <|
    match s.initRegion addr length with
    | .ok t => .ok () t
    | .error e => .error e

/-- Host `MemRead(addr, n)`; another n than 1, 2, 4, 8 is refused (R53, R54, U22). -/
def hostMemRead (addr : Word) (n : Nat) (s : State) : HostReply Word :=
  hostCall s <|
    match widthOfBytes n with
    | none => .refused (.hostAccessWidth n)
    | some w =>
      match s.memRead addr w with
      | .ok v => .ok v s
      | .error e => .error e

/-- Host `MemWrite(addr, n, v)`; another n than 1, 2, 4, 8 is refused (R53, R55, U22). -/
def hostMemWrite (addr : Word) (n : Nat) (v : Word) (s : State) : HostReply Unit :=
  hostCall s <|
    match widthOfBytes n with
    | none => .refused (.hostAccessWidth n)
    | some w =>
      match s.memWrite addr w v with
      | .ok t => .ok () t
      | .error e => .error e

/-- The host reads FLAGS (R42). -/
def hostReadFlags (s : State) : HostReply Word := hostCall s (.ok s.flags s)

/-- The host writes FLAGS with any 64-bit value, before a run (R42, D28; log 12). -/
def hostWriteFlags (v : Word) (s : State) : HostReply Unit :=
  hostCall s <|
    match s.run with
    | .active => .refused .hostFlagsWriteDuringRun
    | .idle => .ok () { s with flags := v }
    | .completed _ => .ok () { s with flags := v }
    | .stopped _ _ => .ok () { s with flags := v }

/-- The host starts a run on a stream with its arguments `SKIP_UNIMPLEMENTED` and `HOSTED` (R5, R195). -/
def hostStartRun (records : List Record) (skip hosted : Bool) (s : State) : HostReply Unit :=
  hostCall s <|
    match s.run with
    | .active => .refused .hostRunGoingOn
    | .idle | .completed _ | .stopped _ _ =>
      .ok () { s with stream := records, index := 0, raised := none, run := .active,
                      skipUnimplemented := skip, hosted := hosted }

/-- After a stop the host issues the same record, and those after it, again (R191). The index is kept, so that a later
`Completed` or `Stopped` counts in the stream first issued: DESIGN CHOICE, log 20. -/
def hostResume (s : State) : HostReply Unit :=
  hostCall s <|
    match s.run with
    | .stopped _ _ => .ok () { s with raised := none, run := .active }
    | .active => .refused .hostRunGoingOn
    | .idle => .refused .hostNothingToResume
    | .completed _ => .refused .hostNothingToResume

end Sys2Proof.Machine
end

