-- ==== Sys2Proof/Machine/AddSubCmp.lean ====
section
/-! DEFINITION. ADD, SUB and CMP (41_add_sub_cmp.md rules R130 to R132): one definition per row over the template `exec2`. -/

namespace Sys2Proof.Machine

/-- ADD.rm8_r8 (R130). -/
def execAddRm8R8 (f : Fields) (s : State) : Host.Outcome State Fault Refusal :=
  deliver s (exec2 .add .rmR .w8 f s)

/-- ADD.rm16_r16 (R130). -/
def execAddRm16R16 (f : Fields) (s : State) : Host.Outcome State Fault Refusal :=
  deliver s (exec2 .add .rmR .w16 f s)

/-- ADD.rm32_r32 (R130). -/
def execAddRm32R32 (f : Fields) (s : State) : Host.Outcome State Fault Refusal :=
  deliver s (exec2 .add .rmR .w32 f s)

/-- ADD.rm64_r64 (R130). -/
def execAddRm64R64 (f : Fields) (s : State) : Host.Outcome State Fault Refusal :=
  deliver s (exec2 .add .rmR .w64 f s)

/-- ADD.r8_rm8 (R130). -/
def execAddR8Rm8 (f : Fields) (s : State) : Host.Outcome State Fault Refusal :=
  deliver s (exec2 .add .rRm .w8 f s)

/-- ADD.r16_rm16 (R130). -/
def execAddR16Rm16 (f : Fields) (s : State) : Host.Outcome State Fault Refusal :=
  deliver s (exec2 .add .rRm .w16 f s)

/-- ADD.r32_rm32 (R130). -/
def execAddR32Rm32 (f : Fields) (s : State) : Host.Outcome State Fault Refusal :=
  deliver s (exec2 .add .rRm .w32 f s)

/-- ADD.r64_rm64 (R130). -/
def execAddR64Rm64 (f : Fields) (s : State) : Host.Outcome State Fault Refusal :=
  deliver s (exec2 .add .rRm .w64 f s)

/-- ADD.AL_imm8 (R130). -/
def execAddAlImm8 (f : Fields) (s : State) : Host.Outcome State Fault Refusal :=
  deliver s (exec2 .add .accImm .w8 f s)

/-- ADD.AX_imm16 (R130). -/
def execAddAxImm16 (f : Fields) (s : State) : Host.Outcome State Fault Refusal :=
  deliver s (exec2 .add .accImm .w16 f s)

/-- ADD.EAX_imm32 (R130). -/
def execAddEaxImm32 (f : Fields) (s : State) : Host.Outcome State Fault Refusal :=
  deliver s (exec2 .add .accImm .w32 f s)

/-- ADD.RAX_imm32 (R130). -/
def execAddRaxImm32 (f : Fields) (s : State) : Host.Outcome State Fault Refusal :=
  deliver s (exec2 .add .accImm .w64 f s)

/-- ADD.rm8_imm8 (R130). -/
def execAddRm8Imm8 (f : Fields) (s : State) : Host.Outcome State Fault Refusal :=
  deliver s (exec2 .add .rmImm .w8 f s)

/-- ADD.rm16_imm16 (R130). -/
def execAddRm16Imm16 (f : Fields) (s : State) : Host.Outcome State Fault Refusal :=
  deliver s (exec2 .add .rmImm .w16 f s)

/-- ADD.rm32_imm32 (R130). -/
def execAddRm32Imm32 (f : Fields) (s : State) : Host.Outcome State Fault Refusal :=
  deliver s (exec2 .add .rmImm .w32 f s)

/-- ADD.rm64_imm32 (R130). -/
def execAddRm64Imm32 (f : Fields) (s : State) : Host.Outcome State Fault Refusal :=
  deliver s (exec2 .add .rmImm .w64 f s)

/-- ADD.rm16_imm8 (R130). -/
def execAddRm16Imm8 (f : Fields) (s : State) : Host.Outcome State Fault Refusal :=
  deliver s (exec2 .add .rmImm8 .w16 f s)

/-- ADD.rm32_imm8 (R130). -/
def execAddRm32Imm8 (f : Fields) (s : State) : Host.Outcome State Fault Refusal :=
  deliver s (exec2 .add .rmImm8 .w32 f s)

/-- ADD.rm64_imm8 (R130). -/
def execAddRm64Imm8 (f : Fields) (s : State) : Host.Outcome State Fault Refusal :=
  deliver s (exec2 .add .rmImm8 .w64 f s)

/-- SUB.rm8_r8 (R131). -/
def execSubRm8R8 (f : Fields) (s : State) : Host.Outcome State Fault Refusal :=
  deliver s (exec2 .sub .rmR .w8 f s)

/-- SUB.rm16_r16 (R131). -/
def execSubRm16R16 (f : Fields) (s : State) : Host.Outcome State Fault Refusal :=
  deliver s (exec2 .sub .rmR .w16 f s)

/-- SUB.rm32_r32 (R131). -/
def execSubRm32R32 (f : Fields) (s : State) : Host.Outcome State Fault Refusal :=
  deliver s (exec2 .sub .rmR .w32 f s)

/-- SUB.rm64_r64 (R131). -/
def execSubRm64R64 (f : Fields) (s : State) : Host.Outcome State Fault Refusal :=
  deliver s (exec2 .sub .rmR .w64 f s)

/-- SUB.r8_rm8 (R131). -/
def execSubR8Rm8 (f : Fields) (s : State) : Host.Outcome State Fault Refusal :=
  deliver s (exec2 .sub .rRm .w8 f s)

/-- SUB.r16_rm16 (R131). -/
def execSubR16Rm16 (f : Fields) (s : State) : Host.Outcome State Fault Refusal :=
  deliver s (exec2 .sub .rRm .w16 f s)

/-- SUB.r32_rm32 (R131). -/
def execSubR32Rm32 (f : Fields) (s : State) : Host.Outcome State Fault Refusal :=
  deliver s (exec2 .sub .rRm .w32 f s)

/-- SUB.r64_rm64 (R131). -/
def execSubR64Rm64 (f : Fields) (s : State) : Host.Outcome State Fault Refusal :=
  deliver s (exec2 .sub .rRm .w64 f s)

/-- SUB.AL_imm8 (R131). -/
def execSubAlImm8 (f : Fields) (s : State) : Host.Outcome State Fault Refusal :=
  deliver s (exec2 .sub .accImm .w8 f s)

/-- SUB.AX_imm16 (R131). -/
def execSubAxImm16 (f : Fields) (s : State) : Host.Outcome State Fault Refusal :=
  deliver s (exec2 .sub .accImm .w16 f s)

/-- SUB.EAX_imm32 (R131). -/
def execSubEaxImm32 (f : Fields) (s : State) : Host.Outcome State Fault Refusal :=
  deliver s (exec2 .sub .accImm .w32 f s)

/-- SUB.RAX_imm32 (R131). -/
def execSubRaxImm32 (f : Fields) (s : State) : Host.Outcome State Fault Refusal :=
  deliver s (exec2 .sub .accImm .w64 f s)

/-- SUB.rm8_imm8 (R131). -/
def execSubRm8Imm8 (f : Fields) (s : State) : Host.Outcome State Fault Refusal :=
  deliver s (exec2 .sub .rmImm .w8 f s)

/-- SUB.rm16_imm16 (R131). -/
def execSubRm16Imm16 (f : Fields) (s : State) : Host.Outcome State Fault Refusal :=
  deliver s (exec2 .sub .rmImm .w16 f s)

/-- SUB.rm32_imm32 (R131). -/
def execSubRm32Imm32 (f : Fields) (s : State) : Host.Outcome State Fault Refusal :=
  deliver s (exec2 .sub .rmImm .w32 f s)

/-- SUB.rm64_imm32 (R131). -/
def execSubRm64Imm32 (f : Fields) (s : State) : Host.Outcome State Fault Refusal :=
  deliver s (exec2 .sub .rmImm .w64 f s)

/-- SUB.rm16_imm8 (R131). -/
def execSubRm16Imm8 (f : Fields) (s : State) : Host.Outcome State Fault Refusal :=
  deliver s (exec2 .sub .rmImm8 .w16 f s)

/-- SUB.rm32_imm8 (R131). -/
def execSubRm32Imm8 (f : Fields) (s : State) : Host.Outcome State Fault Refusal :=
  deliver s (exec2 .sub .rmImm8 .w32 f s)

/-- SUB.rm64_imm8 (R131). -/
def execSubRm64Imm8 (f : Fields) (s : State) : Host.Outcome State Fault Refusal :=
  deliver s (exec2 .sub .rmImm8 .w64 f s)

/-- CMP.rm8_r8 (R132). -/
def execCmpRm8R8 (f : Fields) (s : State) : Host.Outcome State Fault Refusal :=
  deliver s (exec2 .cmp .rmR .w8 f s)

/-- CMP.rm16_r16 (R132). -/
def execCmpRm16R16 (f : Fields) (s : State) : Host.Outcome State Fault Refusal :=
  deliver s (exec2 .cmp .rmR .w16 f s)

/-- CMP.rm32_r32 (R132). -/
def execCmpRm32R32 (f : Fields) (s : State) : Host.Outcome State Fault Refusal :=
  deliver s (exec2 .cmp .rmR .w32 f s)

/-- CMP.rm64_r64 (R132). -/
def execCmpRm64R64 (f : Fields) (s : State) : Host.Outcome State Fault Refusal :=
  deliver s (exec2 .cmp .rmR .w64 f s)

/-- CMP.r8_rm8 (R132). -/
def execCmpR8Rm8 (f : Fields) (s : State) : Host.Outcome State Fault Refusal :=
  deliver s (exec2 .cmp .rRm .w8 f s)

/-- CMP.r16_rm16 (R132). -/
def execCmpR16Rm16 (f : Fields) (s : State) : Host.Outcome State Fault Refusal :=
  deliver s (exec2 .cmp .rRm .w16 f s)

/-- CMP.r32_rm32 (R132). -/
def execCmpR32Rm32 (f : Fields) (s : State) : Host.Outcome State Fault Refusal :=
  deliver s (exec2 .cmp .rRm .w32 f s)

/-- CMP.r64_rm64 (R132). -/
def execCmpR64Rm64 (f : Fields) (s : State) : Host.Outcome State Fault Refusal :=
  deliver s (exec2 .cmp .rRm .w64 f s)

/-- CMP.AL_imm8 (R132). -/
def execCmpAlImm8 (f : Fields) (s : State) : Host.Outcome State Fault Refusal :=
  deliver s (exec2 .cmp .accImm .w8 f s)

/-- CMP.AX_imm16 (R132). -/
def execCmpAxImm16 (f : Fields) (s : State) : Host.Outcome State Fault Refusal :=
  deliver s (exec2 .cmp .accImm .w16 f s)

/-- CMP.EAX_imm32 (R132). -/
def execCmpEaxImm32 (f : Fields) (s : State) : Host.Outcome State Fault Refusal :=
  deliver s (exec2 .cmp .accImm .w32 f s)

/-- CMP.RAX_imm32 (R132). -/
def execCmpRaxImm32 (f : Fields) (s : State) : Host.Outcome State Fault Refusal :=
  deliver s (exec2 .cmp .accImm .w64 f s)

/-- CMP.rm8_imm8 (R132). -/
def execCmpRm8Imm8 (f : Fields) (s : State) : Host.Outcome State Fault Refusal :=
  deliver s (exec2 .cmp .rmImm .w8 f s)

/-- CMP.rm16_imm16 (R132). -/
def execCmpRm16Imm16 (f : Fields) (s : State) : Host.Outcome State Fault Refusal :=
  deliver s (exec2 .cmp .rmImm .w16 f s)

/-- CMP.rm32_imm32 (R132). -/
def execCmpRm32Imm32 (f : Fields) (s : State) : Host.Outcome State Fault Refusal :=
  deliver s (exec2 .cmp .rmImm .w32 f s)

/-- CMP.rm64_imm32 (R132). -/
def execCmpRm64Imm32 (f : Fields) (s : State) : Host.Outcome State Fault Refusal :=
  deliver s (exec2 .cmp .rmImm .w64 f s)

/-- CMP.rm16_imm8 (R132). -/
def execCmpRm16Imm8 (f : Fields) (s : State) : Host.Outcome State Fault Refusal :=
  deliver s (exec2 .cmp .rmImm8 .w16 f s)

/-- CMP.rm32_imm8 (R132). -/
def execCmpRm32Imm8 (f : Fields) (s : State) : Host.Outcome State Fault Refusal :=
  deliver s (exec2 .cmp .rmImm8 .w32 f s)

/-- CMP.rm64_imm8 (R132). -/
def execCmpRm64Imm8 (f : Fields) (s : State) : Host.Outcome State Fault Refusal :=
  deliver s (exec2 .cmp .rmImm8 .w64 f s)

end Sys2Proof.Machine
end

