-- ==== Sys2Proof/Machine/Logical.lean ====
section
/-! DEFINITION. AND, OR and XOR (42_logical.md rules R140 to R142): one definition per row over the template `exec2`. -/

namespace Sys2Proof.Machine

/-- AND.rm8_r8 (R140). -/
def execAndRm8R8 (f : Fields) (s : State) : Host.Outcome State Fault Refusal :=
  deliver s (exec2 .and .rmR .w8 f s)

/-- AND.rm16_r16 (R140). -/
def execAndRm16R16 (f : Fields) (s : State) : Host.Outcome State Fault Refusal :=
  deliver s (exec2 .and .rmR .w16 f s)

/-- AND.rm32_r32 (R140). -/
def execAndRm32R32 (f : Fields) (s : State) : Host.Outcome State Fault Refusal :=
  deliver s (exec2 .and .rmR .w32 f s)

/-- AND.rm64_r64 (R140). -/
def execAndRm64R64 (f : Fields) (s : State) : Host.Outcome State Fault Refusal :=
  deliver s (exec2 .and .rmR .w64 f s)

/-- AND.r8_rm8 (R140). -/
def execAndR8Rm8 (f : Fields) (s : State) : Host.Outcome State Fault Refusal :=
  deliver s (exec2 .and .rRm .w8 f s)

/-- AND.r16_rm16 (R140). -/
def execAndR16Rm16 (f : Fields) (s : State) : Host.Outcome State Fault Refusal :=
  deliver s (exec2 .and .rRm .w16 f s)

/-- AND.r32_rm32 (R140). -/
def execAndR32Rm32 (f : Fields) (s : State) : Host.Outcome State Fault Refusal :=
  deliver s (exec2 .and .rRm .w32 f s)

/-- AND.r64_rm64 (R140). -/
def execAndR64Rm64 (f : Fields) (s : State) : Host.Outcome State Fault Refusal :=
  deliver s (exec2 .and .rRm .w64 f s)

/-- AND.AL_imm8 (R140). -/
def execAndAlImm8 (f : Fields) (s : State) : Host.Outcome State Fault Refusal :=
  deliver s (exec2 .and .accImm .w8 f s)

/-- AND.AX_imm16 (R140). -/
def execAndAxImm16 (f : Fields) (s : State) : Host.Outcome State Fault Refusal :=
  deliver s (exec2 .and .accImm .w16 f s)

/-- AND.EAX_imm32 (R140). -/
def execAndEaxImm32 (f : Fields) (s : State) : Host.Outcome State Fault Refusal :=
  deliver s (exec2 .and .accImm .w32 f s)

/-- AND.RAX_imm32 (R140). -/
def execAndRaxImm32 (f : Fields) (s : State) : Host.Outcome State Fault Refusal :=
  deliver s (exec2 .and .accImm .w64 f s)

/-- AND.rm8_imm8 (R140). -/
def execAndRm8Imm8 (f : Fields) (s : State) : Host.Outcome State Fault Refusal :=
  deliver s (exec2 .and .rmImm .w8 f s)

/-- AND.rm16_imm16 (R140). -/
def execAndRm16Imm16 (f : Fields) (s : State) : Host.Outcome State Fault Refusal :=
  deliver s (exec2 .and .rmImm .w16 f s)

/-- AND.rm32_imm32 (R140). -/
def execAndRm32Imm32 (f : Fields) (s : State) : Host.Outcome State Fault Refusal :=
  deliver s (exec2 .and .rmImm .w32 f s)

/-- AND.rm64_imm32 (R140). -/
def execAndRm64Imm32 (f : Fields) (s : State) : Host.Outcome State Fault Refusal :=
  deliver s (exec2 .and .rmImm .w64 f s)

/-- AND.rm16_imm8 (R140). -/
def execAndRm16Imm8 (f : Fields) (s : State) : Host.Outcome State Fault Refusal :=
  deliver s (exec2 .and .rmImm8 .w16 f s)

/-- AND.rm32_imm8 (R140). -/
def execAndRm32Imm8 (f : Fields) (s : State) : Host.Outcome State Fault Refusal :=
  deliver s (exec2 .and .rmImm8 .w32 f s)

/-- AND.rm64_imm8 (R140). -/
def execAndRm64Imm8 (f : Fields) (s : State) : Host.Outcome State Fault Refusal :=
  deliver s (exec2 .and .rmImm8 .w64 f s)

/-- OR.rm8_r8 (R141). -/
def execOrRm8R8 (f : Fields) (s : State) : Host.Outcome State Fault Refusal :=
  deliver s (exec2 .or .rmR .w8 f s)

/-- OR.rm16_r16 (R141). -/
def execOrRm16R16 (f : Fields) (s : State) : Host.Outcome State Fault Refusal :=
  deliver s (exec2 .or .rmR .w16 f s)

/-- OR.rm32_r32 (R141). -/
def execOrRm32R32 (f : Fields) (s : State) : Host.Outcome State Fault Refusal :=
  deliver s (exec2 .or .rmR .w32 f s)

/-- OR.rm64_r64 (R141). -/
def execOrRm64R64 (f : Fields) (s : State) : Host.Outcome State Fault Refusal :=
  deliver s (exec2 .or .rmR .w64 f s)

/-- OR.r8_rm8 (R141). -/
def execOrR8Rm8 (f : Fields) (s : State) : Host.Outcome State Fault Refusal :=
  deliver s (exec2 .or .rRm .w8 f s)

/-- OR.r16_rm16 (R141). -/
def execOrR16Rm16 (f : Fields) (s : State) : Host.Outcome State Fault Refusal :=
  deliver s (exec2 .or .rRm .w16 f s)

/-- OR.r32_rm32 (R141). -/
def execOrR32Rm32 (f : Fields) (s : State) : Host.Outcome State Fault Refusal :=
  deliver s (exec2 .or .rRm .w32 f s)

/-- OR.r64_rm64 (R141). -/
def execOrR64Rm64 (f : Fields) (s : State) : Host.Outcome State Fault Refusal :=
  deliver s (exec2 .or .rRm .w64 f s)

/-- OR.AL_imm8 (R141). -/
def execOrAlImm8 (f : Fields) (s : State) : Host.Outcome State Fault Refusal :=
  deliver s (exec2 .or .accImm .w8 f s)

/-- OR.AX_imm16 (R141). -/
def execOrAxImm16 (f : Fields) (s : State) : Host.Outcome State Fault Refusal :=
  deliver s (exec2 .or .accImm .w16 f s)

/-- OR.EAX_imm32 (R141). -/
def execOrEaxImm32 (f : Fields) (s : State) : Host.Outcome State Fault Refusal :=
  deliver s (exec2 .or .accImm .w32 f s)

/-- OR.RAX_imm32 (R141). -/
def execOrRaxImm32 (f : Fields) (s : State) : Host.Outcome State Fault Refusal :=
  deliver s (exec2 .or .accImm .w64 f s)

/-- OR.rm8_imm8 (R141). -/
def execOrRm8Imm8 (f : Fields) (s : State) : Host.Outcome State Fault Refusal :=
  deliver s (exec2 .or .rmImm .w8 f s)

/-- OR.rm16_imm16 (R141). -/
def execOrRm16Imm16 (f : Fields) (s : State) : Host.Outcome State Fault Refusal :=
  deliver s (exec2 .or .rmImm .w16 f s)

/-- OR.rm32_imm32 (R141). -/
def execOrRm32Imm32 (f : Fields) (s : State) : Host.Outcome State Fault Refusal :=
  deliver s (exec2 .or .rmImm .w32 f s)

/-- OR.rm64_imm32 (R141). -/
def execOrRm64Imm32 (f : Fields) (s : State) : Host.Outcome State Fault Refusal :=
  deliver s (exec2 .or .rmImm .w64 f s)

/-- OR.rm16_imm8 (R141). -/
def execOrRm16Imm8 (f : Fields) (s : State) : Host.Outcome State Fault Refusal :=
  deliver s (exec2 .or .rmImm8 .w16 f s)

/-- OR.rm32_imm8 (R141). -/
def execOrRm32Imm8 (f : Fields) (s : State) : Host.Outcome State Fault Refusal :=
  deliver s (exec2 .or .rmImm8 .w32 f s)

/-- OR.rm64_imm8 (R141). -/
def execOrRm64Imm8 (f : Fields) (s : State) : Host.Outcome State Fault Refusal :=
  deliver s (exec2 .or .rmImm8 .w64 f s)

/-- XOR.rm8_r8 (R142). -/
def execXorRm8R8 (f : Fields) (s : State) : Host.Outcome State Fault Refusal :=
  deliver s (exec2 .xor .rmR .w8 f s)

/-- XOR.rm16_r16 (R142). -/
def execXorRm16R16 (f : Fields) (s : State) : Host.Outcome State Fault Refusal :=
  deliver s (exec2 .xor .rmR .w16 f s)

/-- XOR.rm32_r32 (R142). -/
def execXorRm32R32 (f : Fields) (s : State) : Host.Outcome State Fault Refusal :=
  deliver s (exec2 .xor .rmR .w32 f s)

/-- XOR.rm64_r64 (R142). -/
def execXorRm64R64 (f : Fields) (s : State) : Host.Outcome State Fault Refusal :=
  deliver s (exec2 .xor .rmR .w64 f s)

/-- XOR.r8_rm8 (R142). -/
def execXorR8Rm8 (f : Fields) (s : State) : Host.Outcome State Fault Refusal :=
  deliver s (exec2 .xor .rRm .w8 f s)

/-- XOR.r16_rm16 (R142). -/
def execXorR16Rm16 (f : Fields) (s : State) : Host.Outcome State Fault Refusal :=
  deliver s (exec2 .xor .rRm .w16 f s)

/-- XOR.r32_rm32 (R142). -/
def execXorR32Rm32 (f : Fields) (s : State) : Host.Outcome State Fault Refusal :=
  deliver s (exec2 .xor .rRm .w32 f s)

/-- XOR.r64_rm64 (R142). -/
def execXorR64Rm64 (f : Fields) (s : State) : Host.Outcome State Fault Refusal :=
  deliver s (exec2 .xor .rRm .w64 f s)

/-- XOR.AL_imm8 (R142). -/
def execXorAlImm8 (f : Fields) (s : State) : Host.Outcome State Fault Refusal :=
  deliver s (exec2 .xor .accImm .w8 f s)

/-- XOR.AX_imm16 (R142). -/
def execXorAxImm16 (f : Fields) (s : State) : Host.Outcome State Fault Refusal :=
  deliver s (exec2 .xor .accImm .w16 f s)

/-- XOR.EAX_imm32 (R142). -/
def execXorEaxImm32 (f : Fields) (s : State) : Host.Outcome State Fault Refusal :=
  deliver s (exec2 .xor .accImm .w32 f s)

/-- XOR.RAX_imm32 (R142). -/
def execXorRaxImm32 (f : Fields) (s : State) : Host.Outcome State Fault Refusal :=
  deliver s (exec2 .xor .accImm .w64 f s)

/-- XOR.rm8_imm8 (R142). -/
def execXorRm8Imm8 (f : Fields) (s : State) : Host.Outcome State Fault Refusal :=
  deliver s (exec2 .xor .rmImm .w8 f s)

/-- XOR.rm16_imm16 (R142). -/
def execXorRm16Imm16 (f : Fields) (s : State) : Host.Outcome State Fault Refusal :=
  deliver s (exec2 .xor .rmImm .w16 f s)

/-- XOR.rm32_imm32 (R142). -/
def execXorRm32Imm32 (f : Fields) (s : State) : Host.Outcome State Fault Refusal :=
  deliver s (exec2 .xor .rmImm .w32 f s)

/-- XOR.rm64_imm32 (R142). -/
def execXorRm64Imm32 (f : Fields) (s : State) : Host.Outcome State Fault Refusal :=
  deliver s (exec2 .xor .rmImm .w64 f s)

/-- XOR.rm16_imm8 (R142). -/
def execXorRm16Imm8 (f : Fields) (s : State) : Host.Outcome State Fault Refusal :=
  deliver s (exec2 .xor .rmImm8 .w16 f s)

/-- XOR.rm32_imm8 (R142). -/
def execXorRm32Imm8 (f : Fields) (s : State) : Host.Outcome State Fault Refusal :=
  deliver s (exec2 .xor .rmImm8 .w32 f s)

/-- XOR.rm64_imm8 (R142). -/
def execXorRm64Imm8 (f : Fields) (s : State) : Host.Outcome State Fault Refusal :=
  deliver s (exec2 .xor .rmImm8 .w64 f s)

end Sys2Proof.Machine
end

