-- ==== Sys2Proof/Machine/Reserved.lean ====
section
/-! DEFINITION. The reserved mnemonic ids, which raise UnimplementedOpcode whatever the variant byte
holds (30_encoding.md rules R90, R95). -/

namespace Sys2Proof.Machine

/-- (ADC): UnimplementedOpcode (R95, R185). -/
def execAdc (v : BitVec 8) (s : State) : Host.Outcome State Fault Refusal :=
  deliver s (.error (.unimplementedOpcode ⟨0x02, v⟩))

/-- (SBB): UnimplementedOpcode (R95, R185). -/
def execSbb (v : BitVec 8) (s : State) : Host.Outcome State Fault Refusal :=
  deliver s (.error (.unimplementedOpcode ⟨0x03, v⟩))

/-- (RCL): UnimplementedOpcode (R95, R185). -/
def execRcl (v : BitVec 8) (s : State) : Host.Outcome State Fault Refusal :=
  deliver s (.error (.unimplementedOpcode ⟨0x12, v⟩))

/-- (RCR): UnimplementedOpcode (R95, R185). -/
def execRcr (v : BitVec 8) (s : State) : Host.Outcome State Fault Refusal :=
  deliver s (.error (.unimplementedOpcode ⟨0x13, v⟩))

/-- (SAL): UnimplementedOpcode (R95, R185). -/
def execSal (v : BitVec 8) (s : State) : Host.Outcome State Fault Refusal :=
  deliver s (.error (.unimplementedOpcode ⟨0x16, v⟩))

end Sys2Proof.Machine
end

