-- ==== Sys2Proof/Machine/ShiftRotate.lean ====
section
/-! DEFINITION. SHL, SHR, SAR, ROL and ROR (43_shift_rotate.md
rules R150 to R156): one definition per row over the template `execShift`. -/

namespace Sys2Proof.Machine

/-- SHL.rm8_1 (R151). -/
def execShlRm8By1 (f : Fields) (s : State) : Host.Outcome State Fault Refusal :=
  deliver s (execShift .shl .rm1 .w8 f s)

/-- SHL.rm16_1 (R151). -/
def execShlRm16By1 (f : Fields) (s : State) : Host.Outcome State Fault Refusal :=
  deliver s (execShift .shl .rm1 .w16 f s)

/-- SHL.rm32_1 (R151). -/
def execShlRm32By1 (f : Fields) (s : State) : Host.Outcome State Fault Refusal :=
  deliver s (execShift .shl .rm1 .w32 f s)

/-- SHL.rm64_1 (R151). -/
def execShlRm64By1 (f : Fields) (s : State) : Host.Outcome State Fault Refusal :=
  deliver s (execShift .shl .rm1 .w64 f s)

/-- SHL.rm8_CL (R151). -/
def execShlRm8Cl (f : Fields) (s : State) : Host.Outcome State Fault Refusal :=
  deliver s (execShift .shl .rmCl .w8 f s)

/-- SHL.rm16_CL (R151). -/
def execShlRm16Cl (f : Fields) (s : State) : Host.Outcome State Fault Refusal :=
  deliver s (execShift .shl .rmCl .w16 f s)

/-- SHL.rm32_CL (R151). -/
def execShlRm32Cl (f : Fields) (s : State) : Host.Outcome State Fault Refusal :=
  deliver s (execShift .shl .rmCl .w32 f s)

/-- SHL.rm64_CL (R151). -/
def execShlRm64Cl (f : Fields) (s : State) : Host.Outcome State Fault Refusal :=
  deliver s (execShift .shl .rmCl .w64 f s)

/-- SHL.rm8_imm8 (R151). -/
def execShlRm8Imm8 (f : Fields) (s : State) : Host.Outcome State Fault Refusal :=
  deliver s (execShift .shl .rmImm8 .w8 f s)

/-- SHL.rm16_imm8 (R151). -/
def execShlRm16Imm8 (f : Fields) (s : State) : Host.Outcome State Fault Refusal :=
  deliver s (execShift .shl .rmImm8 .w16 f s)

/-- SHL.rm32_imm8 (R151). -/
def execShlRm32Imm8 (f : Fields) (s : State) : Host.Outcome State Fault Refusal :=
  deliver s (execShift .shl .rmImm8 .w32 f s)

/-- SHL.rm64_imm8 (R151). -/
def execShlRm64Imm8 (f : Fields) (s : State) : Host.Outcome State Fault Refusal :=
  deliver s (execShift .shl .rmImm8 .w64 f s)

/-- SHR.rm8_1 (R152). -/
def execShrRm8By1 (f : Fields) (s : State) : Host.Outcome State Fault Refusal :=
  deliver s (execShift .shr .rm1 .w8 f s)

/-- SHR.rm16_1 (R152). -/
def execShrRm16By1 (f : Fields) (s : State) : Host.Outcome State Fault Refusal :=
  deliver s (execShift .shr .rm1 .w16 f s)

/-- SHR.rm32_1 (R152). -/
def execShrRm32By1 (f : Fields) (s : State) : Host.Outcome State Fault Refusal :=
  deliver s (execShift .shr .rm1 .w32 f s)

/-- SHR.rm64_1 (R152). -/
def execShrRm64By1 (f : Fields) (s : State) : Host.Outcome State Fault Refusal :=
  deliver s (execShift .shr .rm1 .w64 f s)

/-- SHR.rm8_CL (R152). -/
def execShrRm8Cl (f : Fields) (s : State) : Host.Outcome State Fault Refusal :=
  deliver s (execShift .shr .rmCl .w8 f s)

/-- SHR.rm16_CL (R152). -/
def execShrRm16Cl (f : Fields) (s : State) : Host.Outcome State Fault Refusal :=
  deliver s (execShift .shr .rmCl .w16 f s)

/-- SHR.rm32_CL (R152). -/
def execShrRm32Cl (f : Fields) (s : State) : Host.Outcome State Fault Refusal :=
  deliver s (execShift .shr .rmCl .w32 f s)

/-- SHR.rm64_CL (R152). -/
def execShrRm64Cl (f : Fields) (s : State) : Host.Outcome State Fault Refusal :=
  deliver s (execShift .shr .rmCl .w64 f s)

/-- SHR.rm8_imm8 (R152). -/
def execShrRm8Imm8 (f : Fields) (s : State) : Host.Outcome State Fault Refusal :=
  deliver s (execShift .shr .rmImm8 .w8 f s)

/-- SHR.rm16_imm8 (R152). -/
def execShrRm16Imm8 (f : Fields) (s : State) : Host.Outcome State Fault Refusal :=
  deliver s (execShift .shr .rmImm8 .w16 f s)

/-- SHR.rm32_imm8 (R152). -/
def execShrRm32Imm8 (f : Fields) (s : State) : Host.Outcome State Fault Refusal :=
  deliver s (execShift .shr .rmImm8 .w32 f s)

/-- SHR.rm64_imm8 (R152). -/
def execShrRm64Imm8 (f : Fields) (s : State) : Host.Outcome State Fault Refusal :=
  deliver s (execShift .shr .rmImm8 .w64 f s)

/-- SAR.rm8_1 (R153). -/
def execSarRm8By1 (f : Fields) (s : State) : Host.Outcome State Fault Refusal :=
  deliver s (execShift .sar .rm1 .w8 f s)

/-- SAR.rm16_1 (R153). -/
def execSarRm16By1 (f : Fields) (s : State) : Host.Outcome State Fault Refusal :=
  deliver s (execShift .sar .rm1 .w16 f s)

/-- SAR.rm32_1 (R153). -/
def execSarRm32By1 (f : Fields) (s : State) : Host.Outcome State Fault Refusal :=
  deliver s (execShift .sar .rm1 .w32 f s)

/-- SAR.rm64_1 (R153). -/
def execSarRm64By1 (f : Fields) (s : State) : Host.Outcome State Fault Refusal :=
  deliver s (execShift .sar .rm1 .w64 f s)

/-- SAR.rm8_CL (R153). -/
def execSarRm8Cl (f : Fields) (s : State) : Host.Outcome State Fault Refusal :=
  deliver s (execShift .sar .rmCl .w8 f s)

/-- SAR.rm16_CL (R153). -/
def execSarRm16Cl (f : Fields) (s : State) : Host.Outcome State Fault Refusal :=
  deliver s (execShift .sar .rmCl .w16 f s)

/-- SAR.rm32_CL (R153). -/
def execSarRm32Cl (f : Fields) (s : State) : Host.Outcome State Fault Refusal :=
  deliver s (execShift .sar .rmCl .w32 f s)

/-- SAR.rm64_CL (R153). -/
def execSarRm64Cl (f : Fields) (s : State) : Host.Outcome State Fault Refusal :=
  deliver s (execShift .sar .rmCl .w64 f s)

/-- SAR.rm8_imm8 (R153). -/
def execSarRm8Imm8 (f : Fields) (s : State) : Host.Outcome State Fault Refusal :=
  deliver s (execShift .sar .rmImm8 .w8 f s)

/-- SAR.rm16_imm8 (R153). -/
def execSarRm16Imm8 (f : Fields) (s : State) : Host.Outcome State Fault Refusal :=
  deliver s (execShift .sar .rmImm8 .w16 f s)

/-- SAR.rm32_imm8 (R153). -/
def execSarRm32Imm8 (f : Fields) (s : State) : Host.Outcome State Fault Refusal :=
  deliver s (execShift .sar .rmImm8 .w32 f s)

/-- SAR.rm64_imm8 (R153). -/
def execSarRm64Imm8 (f : Fields) (s : State) : Host.Outcome State Fault Refusal :=
  deliver s (execShift .sar .rmImm8 .w64 f s)

/-- ROL.rm8_1 (R154). -/
def execRolRm8By1 (f : Fields) (s : State) : Host.Outcome State Fault Refusal :=
  deliver s (execShift .rol .rm1 .w8 f s)

/-- ROL.rm16_1 (R154). -/
def execRolRm16By1 (f : Fields) (s : State) : Host.Outcome State Fault Refusal :=
  deliver s (execShift .rol .rm1 .w16 f s)

/-- ROL.rm32_1 (R154). -/
def execRolRm32By1 (f : Fields) (s : State) : Host.Outcome State Fault Refusal :=
  deliver s (execShift .rol .rm1 .w32 f s)

/-- ROL.rm64_1 (R154). -/
def execRolRm64By1 (f : Fields) (s : State) : Host.Outcome State Fault Refusal :=
  deliver s (execShift .rol .rm1 .w64 f s)

/-- ROL.rm8_CL (R154). -/
def execRolRm8Cl (f : Fields) (s : State) : Host.Outcome State Fault Refusal :=
  deliver s (execShift .rol .rmCl .w8 f s)

/-- ROL.rm16_CL (R154). -/
def execRolRm16Cl (f : Fields) (s : State) : Host.Outcome State Fault Refusal :=
  deliver s (execShift .rol .rmCl .w16 f s)

/-- ROL.rm32_CL (R154). -/
def execRolRm32Cl (f : Fields) (s : State) : Host.Outcome State Fault Refusal :=
  deliver s (execShift .rol .rmCl .w32 f s)

/-- ROL.rm64_CL (R154). -/
def execRolRm64Cl (f : Fields) (s : State) : Host.Outcome State Fault Refusal :=
  deliver s (execShift .rol .rmCl .w64 f s)

/-- ROL.rm8_imm8 (R154). -/
def execRolRm8Imm8 (f : Fields) (s : State) : Host.Outcome State Fault Refusal :=
  deliver s (execShift .rol .rmImm8 .w8 f s)

/-- ROL.rm16_imm8 (R154). -/
def execRolRm16Imm8 (f : Fields) (s : State) : Host.Outcome State Fault Refusal :=
  deliver s (execShift .rol .rmImm8 .w16 f s)

/-- ROL.rm32_imm8 (R154). -/
def execRolRm32Imm8 (f : Fields) (s : State) : Host.Outcome State Fault Refusal :=
  deliver s (execShift .rol .rmImm8 .w32 f s)

/-- ROL.rm64_imm8 (R154). -/
def execRolRm64Imm8 (f : Fields) (s : State) : Host.Outcome State Fault Refusal :=
  deliver s (execShift .rol .rmImm8 .w64 f s)

/-- ROR.rm8_1 (R155). -/
def execRorRm8By1 (f : Fields) (s : State) : Host.Outcome State Fault Refusal :=
  deliver s (execShift .ror .rm1 .w8 f s)

/-- ROR.rm16_1 (R155). -/
def execRorRm16By1 (f : Fields) (s : State) : Host.Outcome State Fault Refusal :=
  deliver s (execShift .ror .rm1 .w16 f s)

/-- ROR.rm32_1 (R155). -/
def execRorRm32By1 (f : Fields) (s : State) : Host.Outcome State Fault Refusal :=
  deliver s (execShift .ror .rm1 .w32 f s)

/-- ROR.rm64_1 (R155). -/
def execRorRm64By1 (f : Fields) (s : State) : Host.Outcome State Fault Refusal :=
  deliver s (execShift .ror .rm1 .w64 f s)

/-- ROR.rm8_CL (R155). -/
def execRorRm8Cl (f : Fields) (s : State) : Host.Outcome State Fault Refusal :=
  deliver s (execShift .ror .rmCl .w8 f s)

/-- ROR.rm16_CL (R155). -/
def execRorRm16Cl (f : Fields) (s : State) : Host.Outcome State Fault Refusal :=
  deliver s (execShift .ror .rmCl .w16 f s)

/-- ROR.rm32_CL (R155). -/
def execRorRm32Cl (f : Fields) (s : State) : Host.Outcome State Fault Refusal :=
  deliver s (execShift .ror .rmCl .w32 f s)

/-- ROR.rm64_CL (R155). -/
def execRorRm64Cl (f : Fields) (s : State) : Host.Outcome State Fault Refusal :=
  deliver s (execShift .ror .rmCl .w64 f s)

/-- ROR.rm8_imm8 (R155). -/
def execRorRm8Imm8 (f : Fields) (s : State) : Host.Outcome State Fault Refusal :=
  deliver s (execShift .ror .rmImm8 .w8 f s)

/-- ROR.rm16_imm8 (R155). -/
def execRorRm16Imm8 (f : Fields) (s : State) : Host.Outcome State Fault Refusal :=
  deliver s (execShift .ror .rmImm8 .w16 f s)

/-- ROR.rm32_imm8 (R155). -/
def execRorRm32Imm8 (f : Fields) (s : State) : Host.Outcome State Fault Refusal :=
  deliver s (execShift .ror .rmImm8 .w32 f s)

/-- ROR.rm64_imm8 (R155). -/
def execRorRm64Imm8 (f : Fields) (s : State) : Host.Outcome State Fault Refusal :=
  deliver s (execShift .ror .rmImm8 .w64 f s)

end Sys2Proof.Machine
end

