-- ==== Sys2Proof/Machine/Stack.lean ====
section
/-! DEFINITION. PUSH and POP (44_stack.md rules R170 to R173), the 32-bit forms (rule R172) and
the forms not yet ported (30_encoding.md rule R93). -/

namespace Sys2Proof.Machine

/-- PUSH.r16 (R170). -/
def execPushR16 (f : Fields) (s : State) : Host.Outcome State Fault Refusal :=
  deliver s (pushHandler .w16 f s)

/-- PUSH.r64 (R170). -/
def execPushR64 (f : Fields) (s : State) : Host.Outcome State Fault Refusal :=
  deliver s (pushHandler .w64 f s)

/-- PUSH.r32: Defect("32-bit push/pop") (R172). -/
def execPushR32 (s : State) : Host.Outcome State Fault Refusal :=
  deliver s (.error (.defect .stack32Bit ⟨0x20, 0x02⟩))

/-- PUSH.rm32: Defect("32-bit push/pop") (R172). -/
def execPushRm32 (s : State) : Host.Outcome State Fault Refusal :=
  deliver s (.error (.defect .stack32Bit ⟨0x20, 0x06⟩))

/-- PUSH.imm_opsize32: Defect("32-bit push/pop") (R172). -/
def execPushImmOpsize32 (s : State) : Host.Outcome State Fault Refusal :=
  deliver s (.error (.defect .stack32Bit ⟨0x20, 0x0A⟩))

/-- PUSH.rm16: UnimplementedOpcode (R93). -/
def execPushRm16 (s : State) : Host.Outcome State Fault Refusal :=
  deliver s (.error (.unimplementedOpcode ⟨0x20, 0x05⟩))

/-- PUSH.rm64: UnimplementedOpcode (R93). -/
def execPushRm64 (s : State) : Host.Outcome State Fault Refusal :=
  deliver s (.error (.unimplementedOpcode ⟨0x20, 0x07⟩))

/-- PUSH.imm_opsize16: UnimplementedOpcode (R93). -/
def execPushImmOpsize16 (s : State) : Host.Outcome State Fault Refusal :=
  deliver s (.error (.unimplementedOpcode ⟨0x20, 0x09⟩))

/-- PUSH.imm_opsize64: UnimplementedOpcode (R93). -/
def execPushImmOpsize64 (s : State) : Host.Outcome State Fault Refusal :=
  deliver s (.error (.unimplementedOpcode ⟨0x20, 0x0B⟩))

/-- POP.r16 (R171). -/
def execPopR16 (f : Fields) (s : State) : Host.Outcome State Fault Refusal :=
  deliver s (popHandler .w16 f s)

/-- POP.r64 (R171). -/
def execPopR64 (f : Fields) (s : State) : Host.Outcome State Fault Refusal :=
  deliver s (popHandler .w64 f s)

/-- POP.r32: Defect("32-bit push/pop") (R172). -/
def execPopR32 (s : State) : Host.Outcome State Fault Refusal :=
  deliver s (.error (.defect .stack32Bit ⟨0x21, 0x02⟩))

/-- POP.rm32: Defect("32-bit push/pop") (R172). -/
def execPopRm32 (s : State) : Host.Outcome State Fault Refusal :=
  deliver s (.error (.defect .stack32Bit ⟨0x21, 0x06⟩))

/-- POP.imm_opsize32: Defect("32-bit push/pop") (R172). -/
def execPopImmOpsize32 (s : State) : Host.Outcome State Fault Refusal :=
  deliver s (.error (.defect .stack32Bit ⟨0x21, 0x0A⟩))

/-- POP.rm16: UnimplementedOpcode (R93). -/
def execPopRm16 (s : State) : Host.Outcome State Fault Refusal :=
  deliver s (.error (.unimplementedOpcode ⟨0x21, 0x05⟩))

/-- POP.rm64: UnimplementedOpcode (R93). -/
def execPopRm64 (s : State) : Host.Outcome State Fault Refusal :=
  deliver s (.error (.unimplementedOpcode ⟨0x21, 0x07⟩))

end Sys2Proof.Machine
end

