-- ==== Sys2Proof/Machine/Dispatch.lean ====
section
/-! DEFINITION. Which meaning each instruction has: one arm per constructor of `Instr`. -/

namespace Sys2Proof.Machine

def exec (i : Instr) (s : State) : Host.Outcome State Fault Refusal :=
  match i with
  | .addRm8R8 f => Sys2Proof.Machine.execAddRm8R8 f s
  | .addRm16R16 f => Sys2Proof.Machine.execAddRm16R16 f s
  | .addRm32R32 f => Sys2Proof.Machine.execAddRm32R32 f s
  | .addRm64R64 f => Sys2Proof.Machine.execAddRm64R64 f s
  | .addR8Rm8 f => Sys2Proof.Machine.execAddR8Rm8 f s
  | .addR16Rm16 f => Sys2Proof.Machine.execAddR16Rm16 f s
  | .addR32Rm32 f => Sys2Proof.Machine.execAddR32Rm32 f s
  | .addR64Rm64 f => Sys2Proof.Machine.execAddR64Rm64 f s
  | .addAlImm8 f => Sys2Proof.Machine.execAddAlImm8 f s
  | .addAxImm16 f => Sys2Proof.Machine.execAddAxImm16 f s
  | .addEaxImm32 f => Sys2Proof.Machine.execAddEaxImm32 f s
  | .addRaxImm32 f => Sys2Proof.Machine.execAddRaxImm32 f s
  | .addRm8Imm8 f => Sys2Proof.Machine.execAddRm8Imm8 f s
  | .addRm16Imm16 f => Sys2Proof.Machine.execAddRm16Imm16 f s
  | .addRm32Imm32 f => Sys2Proof.Machine.execAddRm32Imm32 f s
  | .addRm64Imm32 f => Sys2Proof.Machine.execAddRm64Imm32 f s
  | .addRm16Imm8 f => Sys2Proof.Machine.execAddRm16Imm8 f s
  | .addRm32Imm8 f => Sys2Proof.Machine.execAddRm32Imm8 f s
  | .addRm64Imm8 f => Sys2Proof.Machine.execAddRm64Imm8 f s
  | .orRm8R8 f => Sys2Proof.Machine.execOrRm8R8 f s
  | .orRm16R16 f => Sys2Proof.Machine.execOrRm16R16 f s
  | .orRm32R32 f => Sys2Proof.Machine.execOrRm32R32 f s
  | .orRm64R64 f => Sys2Proof.Machine.execOrRm64R64 f s
  | .orR8Rm8 f => Sys2Proof.Machine.execOrR8Rm8 f s
  | .orR16Rm16 f => Sys2Proof.Machine.execOrR16Rm16 f s
  | .orR32Rm32 f => Sys2Proof.Machine.execOrR32Rm32 f s
  | .orR64Rm64 f => Sys2Proof.Machine.execOrR64Rm64 f s
  | .orAlImm8 f => Sys2Proof.Machine.execOrAlImm8 f s
  | .orAxImm16 f => Sys2Proof.Machine.execOrAxImm16 f s
  | .orEaxImm32 f => Sys2Proof.Machine.execOrEaxImm32 f s
  | .orRaxImm32 f => Sys2Proof.Machine.execOrRaxImm32 f s
  | .orRm8Imm8 f => Sys2Proof.Machine.execOrRm8Imm8 f s
  | .orRm16Imm16 f => Sys2Proof.Machine.execOrRm16Imm16 f s
  | .orRm32Imm32 f => Sys2Proof.Machine.execOrRm32Imm32 f s
  | .orRm64Imm32 f => Sys2Proof.Machine.execOrRm64Imm32 f s
  | .orRm16Imm8 f => Sys2Proof.Machine.execOrRm16Imm8 f s
  | .orRm32Imm8 f => Sys2Proof.Machine.execOrRm32Imm8 f s
  | .orRm64Imm8 f => Sys2Proof.Machine.execOrRm64Imm8 f s
  | .andRm8R8 f => Sys2Proof.Machine.execAndRm8R8 f s
  | .andRm16R16 f => Sys2Proof.Machine.execAndRm16R16 f s
  | .andRm32R32 f => Sys2Proof.Machine.execAndRm32R32 f s
  | .andRm64R64 f => Sys2Proof.Machine.execAndRm64R64 f s
  | .andR8Rm8 f => Sys2Proof.Machine.execAndR8Rm8 f s
  | .andR16Rm16 f => Sys2Proof.Machine.execAndR16Rm16 f s
  | .andR32Rm32 f => Sys2Proof.Machine.execAndR32Rm32 f s
  | .andR64Rm64 f => Sys2Proof.Machine.execAndR64Rm64 f s
  | .andAlImm8 f => Sys2Proof.Machine.execAndAlImm8 f s
  | .andAxImm16 f => Sys2Proof.Machine.execAndAxImm16 f s
  | .andEaxImm32 f => Sys2Proof.Machine.execAndEaxImm32 f s
  | .andRaxImm32 f => Sys2Proof.Machine.execAndRaxImm32 f s
  | .andRm8Imm8 f => Sys2Proof.Machine.execAndRm8Imm8 f s
  | .andRm16Imm16 f => Sys2Proof.Machine.execAndRm16Imm16 f s
  | .andRm32Imm32 f => Sys2Proof.Machine.execAndRm32Imm32 f s
  | .andRm64Imm32 f => Sys2Proof.Machine.execAndRm64Imm32 f s
  | .andRm16Imm8 f => Sys2Proof.Machine.execAndRm16Imm8 f s
  | .andRm32Imm8 f => Sys2Proof.Machine.execAndRm32Imm8 f s
  | .andRm64Imm8 f => Sys2Proof.Machine.execAndRm64Imm8 f s
  | .subRm8R8 f => Sys2Proof.Machine.execSubRm8R8 f s
  | .subRm16R16 f => Sys2Proof.Machine.execSubRm16R16 f s
  | .subRm32R32 f => Sys2Proof.Machine.execSubRm32R32 f s
  | .subRm64R64 f => Sys2Proof.Machine.execSubRm64R64 f s
  | .subR8Rm8 f => Sys2Proof.Machine.execSubR8Rm8 f s
  | .subR16Rm16 f => Sys2Proof.Machine.execSubR16Rm16 f s
  | .subR32Rm32 f => Sys2Proof.Machine.execSubR32Rm32 f s
  | .subR64Rm64 f => Sys2Proof.Machine.execSubR64Rm64 f s
  | .subAlImm8 f => Sys2Proof.Machine.execSubAlImm8 f s
  | .subAxImm16 f => Sys2Proof.Machine.execSubAxImm16 f s
  | .subEaxImm32 f => Sys2Proof.Machine.execSubEaxImm32 f s
  | .subRaxImm32 f => Sys2Proof.Machine.execSubRaxImm32 f s
  | .subRm8Imm8 f => Sys2Proof.Machine.execSubRm8Imm8 f s
  | .subRm16Imm16 f => Sys2Proof.Machine.execSubRm16Imm16 f s
  | .subRm32Imm32 f => Sys2Proof.Machine.execSubRm32Imm32 f s
  | .subRm64Imm32 f => Sys2Proof.Machine.execSubRm64Imm32 f s
  | .subRm16Imm8 f => Sys2Proof.Machine.execSubRm16Imm8 f s
  | .subRm32Imm8 f => Sys2Proof.Machine.execSubRm32Imm8 f s
  | .subRm64Imm8 f => Sys2Proof.Machine.execSubRm64Imm8 f s
  | .xorRm8R8 f => Sys2Proof.Machine.execXorRm8R8 f s
  | .xorRm16R16 f => Sys2Proof.Machine.execXorRm16R16 f s
  | .xorRm32R32 f => Sys2Proof.Machine.execXorRm32R32 f s
  | .xorRm64R64 f => Sys2Proof.Machine.execXorRm64R64 f s
  | .xorR8Rm8 f => Sys2Proof.Machine.execXorR8Rm8 f s
  | .xorR16Rm16 f => Sys2Proof.Machine.execXorR16Rm16 f s
  | .xorR32Rm32 f => Sys2Proof.Machine.execXorR32Rm32 f s
  | .xorR64Rm64 f => Sys2Proof.Machine.execXorR64Rm64 f s
  | .xorAlImm8 f => Sys2Proof.Machine.execXorAlImm8 f s
  | .xorAxImm16 f => Sys2Proof.Machine.execXorAxImm16 f s
  | .xorEaxImm32 f => Sys2Proof.Machine.execXorEaxImm32 f s
  | .xorRaxImm32 f => Sys2Proof.Machine.execXorRaxImm32 f s
  | .xorRm8Imm8 f => Sys2Proof.Machine.execXorRm8Imm8 f s
  | .xorRm16Imm16 f => Sys2Proof.Machine.execXorRm16Imm16 f s
  | .xorRm32Imm32 f => Sys2Proof.Machine.execXorRm32Imm32 f s
  | .xorRm64Imm32 f => Sys2Proof.Machine.execXorRm64Imm32 f s
  | .xorRm16Imm8 f => Sys2Proof.Machine.execXorRm16Imm8 f s
  | .xorRm32Imm8 f => Sys2Proof.Machine.execXorRm32Imm8 f s
  | .xorRm64Imm8 f => Sys2Proof.Machine.execXorRm64Imm8 f s
  | .cmpRm8R8 f => Sys2Proof.Machine.execCmpRm8R8 f s
  | .cmpRm16R16 f => Sys2Proof.Machine.execCmpRm16R16 f s
  | .cmpRm32R32 f => Sys2Proof.Machine.execCmpRm32R32 f s
  | .cmpRm64R64 f => Sys2Proof.Machine.execCmpRm64R64 f s
  | .cmpR8Rm8 f => Sys2Proof.Machine.execCmpR8Rm8 f s
  | .cmpR16Rm16 f => Sys2Proof.Machine.execCmpR16Rm16 f s
  | .cmpR32Rm32 f => Sys2Proof.Machine.execCmpR32Rm32 f s
  | .cmpR64Rm64 f => Sys2Proof.Machine.execCmpR64Rm64 f s
  | .cmpAlImm8 f => Sys2Proof.Machine.execCmpAlImm8 f s
  | .cmpAxImm16 f => Sys2Proof.Machine.execCmpAxImm16 f s
  | .cmpEaxImm32 f => Sys2Proof.Machine.execCmpEaxImm32 f s
  | .cmpRaxImm32 f => Sys2Proof.Machine.execCmpRaxImm32 f s
  | .cmpRm8Imm8 f => Sys2Proof.Machine.execCmpRm8Imm8 f s
  | .cmpRm16Imm16 f => Sys2Proof.Machine.execCmpRm16Imm16 f s
  | .cmpRm32Imm32 f => Sys2Proof.Machine.execCmpRm32Imm32 f s
  | .cmpRm64Imm32 f => Sys2Proof.Machine.execCmpRm64Imm32 f s
  | .cmpRm16Imm8 f => Sys2Proof.Machine.execCmpRm16Imm8 f s
  | .cmpRm32Imm8 f => Sys2Proof.Machine.execCmpRm32Imm8 f s
  | .cmpRm64Imm8 f => Sys2Proof.Machine.execCmpRm64Imm8 f s
  | .rolRm8By1 f => Sys2Proof.Machine.execRolRm8By1 f s
  | .rolRm16By1 f => Sys2Proof.Machine.execRolRm16By1 f s
  | .rolRm32By1 f => Sys2Proof.Machine.execRolRm32By1 f s
  | .rolRm64By1 f => Sys2Proof.Machine.execRolRm64By1 f s
  | .rolRm8Cl f => Sys2Proof.Machine.execRolRm8Cl f s
  | .rolRm16Cl f => Sys2Proof.Machine.execRolRm16Cl f s
  | .rolRm32Cl f => Sys2Proof.Machine.execRolRm32Cl f s
  | .rolRm64Cl f => Sys2Proof.Machine.execRolRm64Cl f s
  | .rolRm8Imm8 f => Sys2Proof.Machine.execRolRm8Imm8 f s
  | .rolRm16Imm8 f => Sys2Proof.Machine.execRolRm16Imm8 f s
  | .rolRm32Imm8 f => Sys2Proof.Machine.execRolRm32Imm8 f s
  | .rolRm64Imm8 f => Sys2Proof.Machine.execRolRm64Imm8 f s
  | .rorRm8By1 f => Sys2Proof.Machine.execRorRm8By1 f s
  | .rorRm16By1 f => Sys2Proof.Machine.execRorRm16By1 f s
  | .rorRm32By1 f => Sys2Proof.Machine.execRorRm32By1 f s
  | .rorRm64By1 f => Sys2Proof.Machine.execRorRm64By1 f s
  | .rorRm8Cl f => Sys2Proof.Machine.execRorRm8Cl f s
  | .rorRm16Cl f => Sys2Proof.Machine.execRorRm16Cl f s
  | .rorRm32Cl f => Sys2Proof.Machine.execRorRm32Cl f s
  | .rorRm64Cl f => Sys2Proof.Machine.execRorRm64Cl f s
  | .rorRm8Imm8 f => Sys2Proof.Machine.execRorRm8Imm8 f s
  | .rorRm16Imm8 f => Sys2Proof.Machine.execRorRm16Imm8 f s
  | .rorRm32Imm8 f => Sys2Proof.Machine.execRorRm32Imm8 f s
  | .rorRm64Imm8 f => Sys2Proof.Machine.execRorRm64Imm8 f s
  | .shlRm8By1 f => Sys2Proof.Machine.execShlRm8By1 f s
  | .shlRm16By1 f => Sys2Proof.Machine.execShlRm16By1 f s
  | .shlRm32By1 f => Sys2Proof.Machine.execShlRm32By1 f s
  | .shlRm64By1 f => Sys2Proof.Machine.execShlRm64By1 f s
  | .shlRm8Cl f => Sys2Proof.Machine.execShlRm8Cl f s
  | .shlRm16Cl f => Sys2Proof.Machine.execShlRm16Cl f s
  | .shlRm32Cl f => Sys2Proof.Machine.execShlRm32Cl f s
  | .shlRm64Cl f => Sys2Proof.Machine.execShlRm64Cl f s
  | .shlRm8Imm8 f => Sys2Proof.Machine.execShlRm8Imm8 f s
  | .shlRm16Imm8 f => Sys2Proof.Machine.execShlRm16Imm8 f s
  | .shlRm32Imm8 f => Sys2Proof.Machine.execShlRm32Imm8 f s
  | .shlRm64Imm8 f => Sys2Proof.Machine.execShlRm64Imm8 f s
  | .shrRm8By1 f => Sys2Proof.Machine.execShrRm8By1 f s
  | .shrRm16By1 f => Sys2Proof.Machine.execShrRm16By1 f s
  | .shrRm32By1 f => Sys2Proof.Machine.execShrRm32By1 f s
  | .shrRm64By1 f => Sys2Proof.Machine.execShrRm64By1 f s
  | .shrRm8Cl f => Sys2Proof.Machine.execShrRm8Cl f s
  | .shrRm16Cl f => Sys2Proof.Machine.execShrRm16Cl f s
  | .shrRm32Cl f => Sys2Proof.Machine.execShrRm32Cl f s
  | .shrRm64Cl f => Sys2Proof.Machine.execShrRm64Cl f s
  | .shrRm8Imm8 f => Sys2Proof.Machine.execShrRm8Imm8 f s
  | .shrRm16Imm8 f => Sys2Proof.Machine.execShrRm16Imm8 f s
  | .shrRm32Imm8 f => Sys2Proof.Machine.execShrRm32Imm8 f s
  | .shrRm64Imm8 f => Sys2Proof.Machine.execShrRm64Imm8 f s
  | .sarRm8By1 f => Sys2Proof.Machine.execSarRm8By1 f s
  | .sarRm16By1 f => Sys2Proof.Machine.execSarRm16By1 f s
  | .sarRm32By1 f => Sys2Proof.Machine.execSarRm32By1 f s
  | .sarRm64By1 f => Sys2Proof.Machine.execSarRm64By1 f s
  | .sarRm8Cl f => Sys2Proof.Machine.execSarRm8Cl f s
  | .sarRm16Cl f => Sys2Proof.Machine.execSarRm16Cl f s
  | .sarRm32Cl f => Sys2Proof.Machine.execSarRm32Cl f s
  | .sarRm64Cl f => Sys2Proof.Machine.execSarRm64Cl f s
  | .sarRm8Imm8 f => Sys2Proof.Machine.execSarRm8Imm8 f s
  | .sarRm16Imm8 f => Sys2Proof.Machine.execSarRm16Imm8 f s
  | .sarRm32Imm8 f => Sys2Proof.Machine.execSarRm32Imm8 f s
  | .sarRm64Imm8 f => Sys2Proof.Machine.execSarRm64Imm8 f s
  | .pushR16 f => Sys2Proof.Machine.execPushR16 f s
  | .pushR64 f => Sys2Proof.Machine.execPushR64 f s
  | .pushR32 => Sys2Proof.Machine.execPushR32 s
  | .pushRm32 => Sys2Proof.Machine.execPushRm32 s
  | .pushImmOpsize32 => Sys2Proof.Machine.execPushImmOpsize32 s
  | .pushRm16 => Sys2Proof.Machine.execPushRm16 s
  | .pushRm64 => Sys2Proof.Machine.execPushRm64 s
  | .pushImmOpsize16 => Sys2Proof.Machine.execPushImmOpsize16 s
  | .pushImmOpsize64 => Sys2Proof.Machine.execPushImmOpsize64 s
  | .popR16 f => Sys2Proof.Machine.execPopR16 f s
  | .popR64 f => Sys2Proof.Machine.execPopR64 f s
  | .popR32 => Sys2Proof.Machine.execPopR32 s
  | .popRm32 => Sys2Proof.Machine.execPopRm32 s
  | .popImmOpsize32 => Sys2Proof.Machine.execPopImmOpsize32 s
  | .popRm16 => Sys2Proof.Machine.execPopRm16 s
  | .popRm64 => Sys2Proof.Machine.execPopRm64 s
  | .adc v => Sys2Proof.Machine.execAdc v s
  | .sbb v => Sys2Proof.Machine.execSbb v s
  | .rcl v => Sys2Proof.Machine.execRcl v s
  | .rcr v => Sys2Proof.Machine.execRcr v s
  | .sal v => Sys2Proof.Machine.execSal v s

end Sys2Proof.Machine
end

