-- ==== Sys2Proof/Machine/RunLoop.lean ====
section
/-! DEFINITION. The run loop of 60_exceptions.md rule R195, one record at a time: dispatching a record (30_encoding.md rule
R95) and what the loop does with the outcome (rules R195, R196). `step` (Machine/Step.lean) only calls it. -/

namespace Sys2Proof.Machine

/-- `Dispatch(rec)` (R95): the row's meaning, or the error of a record that selects no row. -/
def dispatch (r : Record) (s : State) : Host.Outcome State Fault Refusal :=
  match decode r with
  | .ok i => exec i s
  | .error e => deliver s (.error (rejectError e))

/-- The loop goes on to the next record (R195 `continue`). -/
def State.continueRun (rest : List Record) (s : State) : State := { s with stream := rest, index := s.index + 1 }

/-- The loop returns `Stopped(i, e)` (R195, R196). The record that raised `e` stays at the head of the stream, so that
the host can issue it again (R191; log 11). -/
def State.stopRun (e : Error) (s : State) : State := { s with run := .stopped s.index e }

/-- The loop returns `Completed(i)` (R195, R196). -/
def State.completeRun (s : State) : State := { s with run := .completed s.index }

/-- The loop's case on the outcome of record i (R195); `rest` is what follows the record in the stream. -/
def afterRecord (rest : List Record) (s : State) : State :=
  match s.raised with
  | none => s.continueRun rest
  | some e =>
    match e.category with
    | .normalTermination => s.completeRun
    | .unimplemented => if s.skipUnimplemented then s.continueRun rest else s.stopRun e
    | .recoverable => s.stopRun e
    | .defect => s.stopRun e

/-- One turn of the loop on record `r`. -/
def runRecord (r : Record) (rest : List Record) (s : State) : Host.Outcome State Fault Refusal :=
  match dispatch r s with
  | .next t => .next (afterRecord rest t)
  | .fault e => .fault e
  | .refused e => .refused e

/-- One step of an instance whose status is Running: the next record of the stream; the end of the stream completes
the run (R195; log 10); with no run going on the block is idle and loses nothing (R201; log 6). -/
def runStep (s : State) : Host.Outcome State Fault Refusal :=
  match s.run with
  | .active =>
    match s.stream with
    | [] => .next s.completeRun
    | r :: rest => runRecord r rest s
  | .idle => .next s
  | .completed _ => .next s
  | .stopped _ _ => .next s

/-- `s` with record `r` as the one the next step runs: at the head of the stream, and a run going on (log 2). -/
def State.withRecord (r : Record) (s : State) : State := { s with stream := r :: s.stream.tail, run := .active }

/-- The error value the caller of a run receives: for a defect it depends on `HOSTED` (R192). -/
def State.report (s : State) : Option Error :=
  match s.run with
  | .stopped _ e =>
    match e.category with
    | .defect => if s.hosted then some e else none
    | .recoverable => some e
    | .unimplemented => some e
    | .normalTermination => some e
  | .idle => none
  | .active => none
  | .completed _ => none

end Sys2Proof.Machine
end

