-- ==== Sys2Proof/Machine/Step.lean ====
section
/-! DEFINITION. One step of the machine: nothing for an Aborted instance (10_state.md rule R36), else one turn of the run
loop (60_exceptions.md rule R195). -/

namespace Sys2Proof.Machine

/-- One step. -/
def step (s : State) : Host.Outcome State Fault Refusal :=
  match s.status with
  | .aborted => .fault .aborted
  | .running => runStep s

/-- `s` with an instruction record, its bits above `nbits` 0, as the one the very next step runs. The block fetches from
no memory (R72): a stream is issued to it from outside (R195; log 2). -/
def State.withFetchWord (s : State) (nbits w : Nat) : State := s.withRecord (recordOfTableWord nbits w)

end Sys2Proof.Machine
end

