-- ==== Sys2Proof/Safety.lean ====
section
/-! DEFINITION. The terms the statements use: the bytes of an access, which states are consistent, what an instruction's
operands are on a state, and the flags of a result said without the engine's own functions. -/

namespace Sys2Proof.Machine

/-- Address `a` is one of the `n` bytes at `addr` (20_memory.md rule R56). -/
def InSpan (addr : Word) (n : Nat) (a : Nat) : Prop := addr.toNat ≤ a ∧ a < addr.toNat + n

/-- The two states hold the same instance: registers, FLAGS, memory and its initialised bytes (R20), `status` apart. -/
def SameInstance (s t : State) : Prop := t.regs = s.regs ∧ t.flags = s.flags ∧ t.mem = s.mem

/-- The run loop's own data is the same (R195, R37): no instruction reads or changes the position in the stream. -/
def SameLoop (s t : State) : Prop :=
  t.stream = s.stream ∧ t.index = s.index ∧ t.run = s.run
    ∧ t.skipUnimplemented = s.skipUnimplemented ∧ t.hosted = s.hosted

/-- States that make sense: memory in canonical form; Aborted exactly when the last record returned a defect; a run
that is over names the loop's index, and a stopped one the error that stopped it (R35, R36, R192, R195). -/
def Consistent (s : State) : Prop :=
  s.mem.wf = true
    ∧ (s.status = .aborted ↔ ∃ which id, s.raised = some (.defect which id))
    ∧ (∀ i e, s.run = .stopped i e → i = s.index ∧ s.raised = some e)
    ∧ (∀ k, s.run = .completed k → k = s.index)

/-- The operands of a two-operand instruction on a state: the instance is Running, the instruction fits its row, and
its operands resolve to `dst` and `src` and read as `a` and `b` (R122). -/
def AluOperands (op : EngineOp) (shape : AluShape) (w : Width) (f : Fields) (s : State) (dst src : Operand)
    (a b : Word) : Prop :=
  s.status = .running ∧ (Form.alu2 op shape w f).wellFormed = true
    ∧ s.resolve (aluId op shape w) 0 f.slot0.desc = .ok dst
    ∧ s.resolve (aluId op shape w) 1 f.slot1.desc = .ok src
    ∧ s.opRead (aluId op shape w) dst w = .ok a
    ∧ s.opRead (aluId op shape w) src w = .ok b

/-- The operands of a shift or rotate on a state: the instance is Running, the instruction fits its row, its
destination resolves to `dst` and reads as `a`, and its raw count is `craw` (R123). -/
def ShiftOperands (op : EngineOp) (shape : ShiftShape) (w : Width) (f : Fields) (s : State) (dst : Operand)
    (a craw : Word) : Prop :=
  s.status = .running ∧ (Form.shift op shape w f).wellFormed = true
    ∧ s.shiftOperands (shiftId op shape w) shape w f = .ok (dst, craw)
    ∧ s.opRead (shiftId op shape w) dst w = .ok a

/-- The register operand of a PUSH or POP on a state: the instance is Running, the instruction fits its row, and its
operand is the register `r` (R170, R171). -/
def StackOperand (form : Form) (f : Fields) (s : State) (r : RegIdx) : Prop :=
  s.status = .running ∧ form.wellFormed = true ∧ ∃ nb, f.slot0.desc = .reg r nb

/-- The W-bit number a word holds in its low W bits. -/
abbrev atWidth (w : Width) (v : Word) : BitVec w.bits := v.setWidth w.bits

/-- SF, ZF and PF of a W-bit result (R112 to R114): its top bit, whether it is 0, and whether its low byte has an even
number of 1 bits. -/
def ResultFlags (w : Width) (r : BitVec w.bits) (t : State) : Prop :=
  t.flag .sf = r.msb
    ∧ (t.flag .zf = true ↔ r = 0)
    ∧ (t.flag .pf = true ↔ ((List.range 8).countP fun k => r.getLsbD k) % 2 = 0)

/-- The bits of FLAGS that are none of the six flags are the same (R34). -/
def OtherFlagBitsKept (s t : State) : Prop :=
  ∀ k, k ∉ [0, 2, 4, 6, 7, 11] → t.flags.getLsbD k = s.flags.getLsbD k

/-- A host call's reply with FLAGS `g` in the state after it. -/
def HostReply.withFlags {α : Type} (g : Word) : HostReply α → HostReply α
  | .ok v s => .ok v { s with flags := g }
  | .error e => .error e
  | .stuck f => .stuck f
  | .refused r => .refused r

/-- The host call neither reads nor writes FLAGS: on a state with other FLAGS it replies the same, errors and refusals
included, and those FLAGS stand in the state after it. -/
def FlagsUntouched {α : Type} (call : State → HostReply α) : Prop :=
  ∀ (s : State) (g : Word), call { s with flags := g } = (call s).withFlags g

/-- The state `t` is what writing `v` to the operand `dst` makes of `s`, but for FLAGS and what was returned to the
caller: success. -/
def WritesBack (id : OpcodeId) (dst : Operand) (w : Width) (v : BitVec w.bits) (s t : State) : Prop :=
  t.raised = none
    ∧ s.opWrite id dst w (v.setWidth 64) = .ok { t with flags := s.flags, raised := s.raised }

/-- The masked count of a shift or rotate (R150). -/
abbrev effectiveCount (w : Width) (craw : Word) : Nat := craw.toNat % 256 % (if w = .w64 then 64 else 32)

end Sys2Proof.Machine
end

