-- ==== Sys2Proof/Certificates/Slice0/Obligations.lean ====
section
/-! DEFINITION. The statements for the provers, in the order of OBLIGATIONS.json. A docstring names the rule of spec/ the
statement formalises and, where it rests on a decision the spec marks as its own, that decision. -/

open Sys2Proof Sys2Proof.Machine

/-! ## Records -/

/-- Encoding then decoding gives the instruction back, every operand at every value its fields admit, for all 195
rows, well-formed or not (30_encoding.md rules R81 to R83, R90 to R93; the layout is the spec's own, D12, D13). -/
def Obligations.DecodeOfEncodeIsTheInstruction : Prop :=
  ∀ i : Instr, decode (encode i) = .ok i

/-- Records of 97_programs.md, written there as 224-bit words, decode to the instructions beside them: P2 record 0,
P1 record 2, P1 record 3, P3 record 3, P5a record 1 and record 3. -/
def Obligations.ListedRecordsDecode : Prop :=
  decode 0x000000000000000000000100000000000000000000036C0D00020200
      = .ok (.addRm32R32 ⟨2, ⟨0, .mem (some 3) (some 6) .x8 0⟩, ⟨0, .reg 0 4⟩⟩)
    ∧ decode 0x00000000000000030000004200000000000000000000020C00020B14
      = .ok (.shlRm64Imm8 ⟨2, ⟨0, .reg 3 8⟩, ⟨0, .imm 1 3⟩⟩)
    ∧ decode 0x00000000000000000000000000000000000000000000020000010314
      = .ok (.shlRm64By1 ⟨1, ⟨0, .reg 0 8⟩, ⟨0, .reg 0 0⟩⟩)
    ∧ decode 0x00000000000000000000000000000000000000000000008400010121
      = .ok (.popR16 ⟨1, ⟨0, .reg 1 2⟩, ⟨0, .reg 0 0⟩⟩)
    ∧ decode 0x00000000000000010000004200000000000000000000004000020802 = .ok (.adc 0x08)
    ∧ decode 0x00000000000000000000000000000000000000000000010000010220 = .ok .pushR32

/-- Which records select a row and which do not, by their header alone. Reserved header bits are met before anything else;
then a mnemonic id without a table; then a variant byte that is not in the mnemonic's table. Every other record selects
the row of its own ids: 19 variants of each of ADD, OR, AND, SUB, XOR, CMP, 12 of each of ROL, ROR, SHL, SHR, SAR, and r16 and
r64 of PUSH and POP carry the record's fields; the other seven PUSH rows, the other five POP rows, and every variant
byte of the five reserved mnemonic ids are rows without a handler (30_encoding.md rules R89 to R93, R95; D12 to D14, D19,
D33). -/
def Obligations.DecodeSelectsARowOrRejectsByName : Prop :=
  ∀ r : Record,
    let id := opcodeIdOf r.hdr
    (r.hdr.extractLsb' 18 14 ≠ 0 → decode r = .error (.reservedBits id))
      ∧ (r.hdr.extractLsb' 18 14 = 0 →
        (id.mnemonic ∉ [0x00, 0x01, 0x02, 0x03, 0x04, 0x05, 0x06, 0x07, 0x10, 0x11, 0x12, 0x13, 0x14, 0x15, 0x16,
            0x17, 0x20, 0x21] → decode r = .error (.noTable id))
          ∧ (id.mnemonic ∈ [0x00, 0x01, 0x04, 0x05, 0x06, 0x07] →
            if id.variant.toNat < 0x14 ∧ id.variant ≠ 0x10 then
              ∃ i, decode r = .ok i ∧ i.form.id = id ∧ i.form.fields = decodeFields r
            else decode r = .error (.unrecognisedVariant id))
          ∧ (id.mnemonic ∈ [0x10, 0x11, 0x14, 0x15, 0x17] →
            if id.variant.toNat < 0x0C then
              ∃ i, decode r = .ok i ∧ i.form.id = id ∧ i.form.fields = decodeFields r
            else decode r = .error (.unrecognisedVariant id))
          ∧ (id.mnemonic = 0x20 ∨ id.mnemonic = 0x21 →
            (id.variant ∈ [0x01, 0x03] →
                ∃ i, decode r = .ok i ∧ i.form.id = id ∧ i.form.fields = decodeFields r)
              ∧ (id.variant ∈ [0x02, 0x06, 0x0A, 0x05, 0x07] → ∃ i, decode r = .ok i ∧ i.form.id = id)
              ∧ (id.variant ∈ [0x09, 0x0B] → if id.mnemonic = 0x20 then ∃ i, decode r = .ok i ∧ i.form.id = id
                  else decode r = .error (.unrecognisedVariant id))
              ∧ (id.variant ∉ [0x01, 0x03, 0x02, 0x06, 0x0A, 0x05, 0x07, 0x09, 0x0B] →
                decode r = .error (.unrecognisedVariant id)))
          ∧ (id.mnemonic ∈ [0x02, 0x03, 0x12, 0x13, 0x16] → ∃ i, decode r = .ok i ∧ i.form.id = id))

/-- A field that a descriptor's kind does not use is ignored: the base's number without a base, the index's number
without an index, every field but the declared width of an immediate, everything of kind 3; and of an immediate's
payload the bits above its declared width (30_encoding.md rules R83, R86; U20; the layout is D12, D16). -/
def Obligations.UnusedDescriptorFieldsAreIgnored : Prop :=
  ∀ (c c' : BitVec 32) (p p' : Word), c.extractLsb' 0 2 = c'.extractLsb' 0 2 →
    (c.extractLsb' 0 2 = 0 → c.extractLsb' 2 8 = c'.extractLsb' 2 8 → decodeDesc c p = decodeDesc c' p')
      ∧ (c.extractLsb' 0 2 = 1 → p = p' → c.extractLsb' 10 2 = c'.extractLsb' 10 2 →
        c.extractLsb' 16 2 = c'.extractLsb' 16 2 →
        (c.extractLsb' 10 1 = 1 → c.extractLsb' 2 4 = c'.extractLsb' 2 4) →
        (c.extractLsb' 11 1 = 1 → c.extractLsb' 12 4 = c'.extractLsb' 12 4) → decodeDesc c p = decodeDesc c' p')
      ∧ (c.extractLsb' 0 2 = 2 → c.extractLsb' 6 4 = c'.extractLsb' 6 4 →
        ∀ (w : Width), (c.extractLsb' 6 4).toNat = w.bytes → p.setWidth w.bits = p'.setWidth w.bits →
        ∀ (s : State) (id : OpcodeId) (k : Nat),
          s.resolve id k (decodeDesc c p) = s.resolve id k (decodeDesc c' p'))
      ∧ (c.extractLsb' 0 2 = 3 → decodeDesc c p = decodeDesc c' p')

/-- The engine's `op` is bits 4 and 2 to 0 of the mnemonic id; a command word drives the engine at its operation and
width; the five reserved `op` values drive nothing (30_encoding.md rule R98; the ports are the spec's own, D15). -/
def Obligations.EngineCommandSelectsOperationAndWidth : Prop :=
  (∀ op : EngineOp, opBits op = op.mnemonicId.extractLsb' 4 1 ++ op.mnemonicId.extractLsb' 0 3)
    ∧ (∀ (op : EngineOp) (w : Width) (d s : Word), enginePort (engineCmd op w) d s = some (afe op w d s))
    ∧ (∀ (cmd : BitVec 6) (d s : Word), cmd.extractLsb' 0 4 ∈ [2, 3, 10, 11, 14] → enginePort cmd d s = none)

/-! ## Steps and the run loop -/

/-- When the record at the head of the stream decodes to an instruction, the instruction's meaning gives a next state
and the step is that state followed by the loop's case on its outcome (60_exceptions.md rule R195, 30_encoding.md rule
R95; the loop is D11, and that it stands in the model's state is log 1). -/
def Obligations.StepRunsTheDecodedInstruction : Prop :=
  ∀ (s : State) (r : Record) (rest : List Record) (i : Instr),
    s.status = .running → s.run = .active → s.stream = r :: rest → decode r = .ok i →
      ∃ t, exec i s = .next t ∧ step s = .next (afterRecord rest t)

/-- A record that selects no row raises: UnimplementedOpcode for a mnemonic without a table, else a defect; the loop then
treats the error like any other (30_encoding.md rules R89, R95; D12, D19; the run loop, D11, log 1). The error records the
record's own ids (60_exceptions.md rule R181, the spec's own, D17); that it does so for reserved header bits too is log
19. -/
def Obligations.StepRaisesForARecordWithoutARow : Prop :=
  ∀ (s : State) (r : Record) (rest : List Record) (id : OpcodeId),
    s.status = .running → s.run = .active → s.stream = r :: rest →
      (decode r = .error (.noTable id) → step s = .next (afterRecord rest (s.raise (.unimplementedOpcode id))))
        ∧ (decode r = .error (.unrecognisedVariant id) →
          step s = .next (afterRecord rest (s.raise (.defect .unrecognisedVariant id))))
        ∧ (decode r = .error (.reservedBits id) →
          step s = .next (afterRecord rest (s.raise (.defect .reservedBits id))))

/-- What the loop does after record i: goes on after success and, when `SKIP_UNIMPLEMENTED` is true, after
UnimplementedOpcode; stops with `Stopped(i, e)` at any other error; completes at NormalTermination (60_exceptions.md rule R195;
the spec's own reading, D11). That the loop's data stands in the state is the model's choice (log 1), and so is that a
stop or a completion leaves the record at the head of the stream, a stopped one for the host to issue again (log 11). -/
def Obligations.RunLoopAfterEachOutcome : Prop :=
  ∀ (rest : List Record) (t : State),
    (t.raised = none → afterRecord rest t = { t with stream := rest, index := t.index + 1 })
      ∧ (∀ id, t.raised = some (.unimplementedOpcode id) → t.skipUnimplemented = true →
        afterRecord rest t = { t with stream := rest, index := t.index + 1 })
      ∧ (∀ id, t.raised = some (.unimplementedOpcode id) → t.skipUnimplemented = false →
        afterRecord rest t = { t with run := .stopped t.index (.unimplementedOpcode id) })
      ∧ (∀ e, t.raised = some e → (e.code = 1 ∨ e.code = 2 ∨ e.code = 3 ∨ e.code = 5) →
        afterRecord rest t = { t with run := .stopped t.index e })
      ∧ (t.raised = some .normalTermination → afterRecord rest t = { t with run := .completed t.index })

/-- A run whose stream is used up completes (60_exceptions.md rules R195, R196; D11); with no run going on a step changes
nothing (60_exceptions.md rule R201). That idling is a step is the model's choice (log 6), and so is that the end of the
stream takes a step of its own (log 10). -/
def Obligations.EndOfStreamCompletesAndIdlingChangesNothing : Prop :=
  ∀ s : State, s.status = .running →
    (s.run = .active → s.stream = [] → step s = .next { s with run := .completed s.index })
      ∧ (s.run ≠ .active → step s = .next s)

/-- An Aborted instance executes nothing and answers no host call: no register, memory or FLAGS access, and no run is
started or resumed on it (10_state.md rules R36, R42, 60_exceptions.md rules R192, R195, U23; the spec's own way to hold
the source's rule, D24; that the host's starting and resuming a run are calls is the model's, log 11). -/
def Obligations.AbortedInstanceHasNoStep : Prop :=
  ∀ s : State, s.status = .aborted →
    step s = .fault .aborted
      ∧ (∀ i : Instr, exec i s = .fault .aborted)
      ∧ (∀ i bits, hostRegRead i bits s = .stuck .aborted)
      ∧ (∀ i bits v, hostRegWrite i bits v s = .stuck .aborted)
      ∧ (∀ addr n, hostInitRegion addr n s = .stuck .aborted)
      ∧ (∀ addr n, hostMemRead addr n s = .stuck .aborted)
      ∧ (∀ addr n v, hostMemWrite addr n v s = .stuck .aborted)
      ∧ hostReadFlags s = .stuck .aborted
      ∧ (∀ v, hostWriteFlags v s = .stuck .aborted)
      ∧ (∀ records skip hosted, hostStartRun records skip hosted s = .stuck .aborted)
      ∧ hostResume s = .stuck .aborted

/-- A Running instance always has a next state: no instruction and no record stops the machine, whatever it holds
(40_flag_engine.md rule R111, 30_encoding.md rule R95; errors are next states, log 5). -/
def Obligations.RunningInstanceAlwaysSteps : Prop :=
  ∀ s : State, s.status = .running → (∃ t, step s = .next t) ∧ ∀ i : Instr, ∃ t, exec i s = .next t

/-- Every run of a finite stream ends, whatever the records and the state: after at most one step per record and one
more the loop has returned (60_exceptions.md rule R195; the loop is D11; the last step is the model's, log 10). -/
def Obligations.EveryRunOfAFiniteStreamEnds : Prop :=
  ∀ s : State, s.status = .running → s.run = .active →
    ∃ k t, k ≤ s.stream.length + 1 ∧ Host.Core.run core k s = .next t ∧ t.run ≠ .active

/-! ## Whole-machine rules -/

/-- The invariant of `Consistent` (memory in canonical form; Aborted exactly when the last record returned a defect; a
run that is over names the loop's index and the error that stopped it) is kept by every step (10_state.md rules R35, R36,
60_exceptions.md rules R192, R195; D11, D24). -/
def Obligations.StepKeepsConsistent : Prop :=
  ∀ s t : State, Consistent s → step s = .next t → Consistent t

/-- The state after reset meets the invariant. -/
def Obligations.ResetIsConsistent : Prop := Consistent State.reset

/-- What reset leaves: all cells 0, FLAGS 0, no byte initialised, Running (10_state.md rule R40, 70_reset_and_hazards.md
rule R210; the values are the spec's own, D6), and the run loop without a stream (the model's, log 2). -/
def Obligations.ResetLeavesZerosAndNothingInitialised : Prop :=
  (∀ i : RegIdx, State.reset.reg i = 0) ∧ State.reset.flags = 0
    ∧ (∀ a, State.reset.mem.isInit a = false) ∧ State.reset.status = .running
    ∧ State.reset.stream = [] ∧ State.reset.run = .idle

/-- A byte becomes initialised by init_region only, and no byte ever stops being initialised: init_region adds exactly
its range, and no step and no other host call changes which bytes are initialised (10_state.md rule R35). -/
def Obligations.OnlyInitRegionInitialises : Prop :=
  ∀ s t : State, s.mem.wf = true →
    (step s = .next t → ∀ a, t.mem.isInit a = s.mem.isInit a)
      ∧ (∀ addr n, hostInitRegion addr n s = .ok () t →
        ∀ a, t.mem.isInit a = true ↔ s.mem.isInit a = true ∨ InSpan addr n a)
      ∧ (∀ addr n v, hostMemWrite addr n v s = .ok () t → ∀ a, t.mem.isInit a = s.mem.isInit a)
      ∧ ((∃ addr n v, hostMemRead addr n s = .ok v t) ∨ (∃ i n v, hostRegRead i n s = .ok v t)
          ∨ (∃ i n v, hostRegWrite i n v s = .ok () t) ∨ (∃ v, hostReadFlags s = .ok v t)
          ∨ (∃ v, hostWriteFlags v s = .ok () t) ∨ (∃ rs b c, hostStartRun rs b c s = .ok () t)
          ∨ hostResume s = .ok () t → t.mem = s.mem)

/-- The 58 bits of FLAGS other than the six flags are written by no step and by no host call but the one that writes
FLAGS, which sets them to the value it is given. They are read by no step, no instruction and no host call but the one
that reads FLAGS: with other FLAGS an instruction and a step do the same and keep those bits, and a host call replies the
same (10_state.md rule R34; what the host may call, rule R42). -/
def Obligations.OtherFlagBitsNeverChange : Prop :=
  ∀ s t : State,
    (step s = .next t → OtherFlagBitsKept s t)
      ∧ ((∃ addr n, hostInitRegion addr n s = .ok () t) ∨ (∃ addr n v, hostMemRead addr n s = .ok v t)
          ∨ (∃ addr n v, hostMemWrite addr n v s = .ok () t) ∨ (∃ i n v, hostRegRead i n s = .ok v t)
          ∨ (∃ i n v, hostRegWrite i n v s = .ok () t) ∨ (∃ v, hostReadFlags s = .ok v t)
          ∨ (∃ rs b c, hostStartRun rs b c s = .ok () t) ∨ hostResume s = .ok () t → t.flags = s.flags)
      ∧ (∀ v, hostReadFlags s = .ok v t → v = s.flags)
      ∧ (∀ v, hostWriteFlags v s = .ok () t → t.flags = v)
      ∧ (∀ (i : Instr) (g : Word), exec i s = .next t →
        ∃ g', exec i { s with flags := g } = .next { t with flags := g' }
          ∧ ∀ k, k ∉ [0, 2, 4, 6, 7, 11] → g'.getLsbD k = g.getLsbD k)
      ∧ (∀ g : Word, step s = .next t →
        ∃ g', step { s with flags := g } = .next { t with flags := g' }
          ∧ ∀ k, k ∉ [0, 2, 4, 6, 7, 11] → g'.getLsbD k = g.getLsbD k)
      ∧ ((∀ addr n, FlagsUntouched (hostInitRegion addr n)) ∧ (∀ addr n, FlagsUntouched (hostMemRead addr n))
          ∧ (∀ addr n v, FlagsUntouched (hostMemWrite addr n v)) ∧ (∀ i n, FlagsUntouched (hostRegRead i n))
          ∧ (∀ i n v, FlagsUntouched (hostRegWrite i n v))
          ∧ (∀ rs b c, FlagsUntouched (hostStartRun rs b c)) ∧ FlagsUntouched hostResume)

/-- No instruction reads a flag: with other FLAGS the same instruction does the same, the same flags are written with
the same values, and every flag it does not write is kept; an instruction that is no arithmetic, logical, shift or
rotate instruction writes none (10_state.md rule R32). -/
def Obligations.NoInstructionReadsAFlag : Prop :=
  ∀ (i : Instr) (s t : State), exec i s = .next t →
    ∃ d m, t.flags = mergeFlags s.flags d m
      ∧ (∀ g : Word, exec i { s with flags := g } = .next { t with flags := mergeFlags g d m })
      ∧ ((∀ op shape w f, i.form ≠ .alu2 op shape w f) → (∀ op shape w f, i.form ≠ .shift op shape w f) →
        d = 0 ∧ m = 0)

/-- An instruction that raises leaves the instance as it was: no cell, flag, memory byte or initialised byte differs,
and only a defect changes `status` (60_exceptions.md rules R187, R191, R192; the spec's own rule, D10, D24). -/
def Obligations.ErrorsLeaveTheInstanceUntouched : Prop :=
  ∀ (i : Instr) (s t : State) (e : Error), exec i s = .next t → t.raised = some e →
    SameInstance s t ∧ SameLoop s t ∧ (t.status = .aborted ↔ ∃ which id, e = .defect which id)

/-- No instruction reads or changes the position in the stream (10_state.md rule R37; that there is no program counter is
the spec's own, D3): the loop's data is the same after it, and with another stream and index it does the same. -/
def Obligations.NoInstructionTouchesTheStreamPosition : Prop :=
  ∀ (i : Instr) (s t : State) (rs : List Record) (n : Nat), exec i s = .next t →
    SameLoop s t
      ∧ exec i { s with stream := rs, index := n } = .next { t with stream := rs, index := n }

/-- No instruction in scope raises NormalTermination (60_exceptions.md rule R188; the spec's own, D25). -/
def Obligations.NoInstructionRaisesNormalTermination : Prop :=
  ∀ (i : Instr) (s t : State), exec i s = .next t → t.raised ≠ some .normalTermination

/-- A well-formed instruction with a handler raises nothing but UninitializedAccess (30_encoding.md rule R96,
60_exceptions.md rule R182; the order of checks is D18). -/
def Obligations.WellFormedInstructionRaisesOnlyUninitializedAccess : Prop :=
  ∀ (i : Instr) (s t : State) (e : Error), i.wellFormed = true →
    (∀ op v, i.form ≠ .defect32 op v) → (∀ op v, i.form ≠ .unported op v) → (∀ m v, i.form ≠ .reserved m v) →
    exec i s = .next t → t.raised = some e → ∃ addr n access, e = .uninitializedAccess addr n access

/-- Arithmetic wraps and traps on nothing: a well-formed arithmetic, logical, compare, shift or rotate instruction whose
operands are registers and immediates always succeeds, and the engine's result is a W-bit value (40_flag_engine.md
rule R111). -/
def Obligations.RegisterInstructionsNeverTrap : Prop :=
  (∀ (i : Instr) (op : EngineOp) (shape : AluShape) (w : Width) (f : Fields) (s : State),
      i.form = .alu2 op shape w f → i.wellFormed = true → s.status = .running →
      (∀ b j sc disp, f.slot0.desc ≠ .mem b j sc disp ∧ f.slot1.desc ≠ .mem b j sc disp) →
      ∃ t, exec i s = .next t ∧ t.raised = none)
    ∧ (∀ (i : Instr) (op : EngineOp) (shape : ShiftShape) (w : Width) (f : Fields) (s : State),
      i.form = .shift op shape w f → i.wellFormed = true → s.status = .running →
      (∀ b j sc disp, f.slot0.desc ≠ .mem b j sc disp) → ∃ t, exec i s = .next t ∧ t.raised = none)
    ∧ ∀ (op : EngineOp) (w : Width) (d s : Word), (afe op w d s).result.toNat < 2 ^ w.bits

/-! ## Registers and memory -/

/-- Writing a view: 8 and 16 bits replace the low bits and keep those above, 32 bits clear the upper half, 64 bits
replace the cell; nothing else of the state changes (10_state.md rules R24, R25, R26). -/
def Obligations.RegisterWriteReplacesOnlyItsView : Prop :=
  ∀ (s : State) (i : RegIdx) (w : Width) (v : Word),
    (∀ k, k < 64 → ((s.regWrite i w v).reg i).getLsbD k =
      if k < w.bits then v.getLsbD k else decide (w ≠ .w32) && (s.reg i).getLsbD k)
      ∧ (∀ j, j ≠ i → (s.regWrite i w v).reg j = s.reg j)
      ∧ { s.regWrite i w v with regs := s.regs } = s

/-- Aliasing: after a narrow write a wider read has the value in its low bits and the cell's earlier bits above; after a
32-bit write the whole cell is the value zero-extended (10_state.md rule R28, which the spec derives). -/
def Obligations.NarrowWriteIsSeenByWiderRead : Prop :=
  ∀ (s : State) (i : RegIdx) (v : Word),
    (∀ wn ww : Width, (wn = .w8 ∨ wn = .w16) → wn.bits ≤ ww.bits → ∀ k, k < ww.bits →
      ((s.regWrite i wn v).regRead i ww).getLsbD k =
        if k < wn.bits then v.getLsbD k else (s.reg i).getLsbD k)
      ∧ (s.regWrite i .w32 v).regRead i .w64 = (v.setWidth 32).setWidth 64

/-- A read succeeds exactly when the access lies in the address space and every byte is initialised; the byte at the
lowest address is the least significant; a failed read records the address, the count and that it was a read
(20_memory.md rule R54; the bound at the top of the space is R57's). -/
def Obligations.MemReadIsLittleEndianOverInitialisedBytes : Prop :=
  ∀ (s : State) (addr : Word) (w : Width),
    ((addr.toNat + w.bytes ≤ 2 ^ 64 ∧ ∀ a, InSpan addr w.bytes a → s.mem.isInit a = true) →
      ∃ v, s.memRead addr w = .ok v ∧ v.toNat < 2 ^ w.bits
        ∧ ∀ k, k < w.bytes → s.mem.read (addr.toNat + k) = some (v.extractLsb' (8 * k) 8))
      ∧ (¬ (addr.toNat + w.bytes ≤ 2 ^ 64 ∧ ∀ a, InSpan addr w.bytes a → s.mem.isInit a = true) →
        s.memRead addr w = .error (.uninitializedAccess addr w.bytes .read))

/-- A write succeeds exactly when a read would; it stores byte k of the value at address + k, touches no other byte and
initialises none; a failed write records the address, the count and that it was a write (20_memory.md rule R55; the
bound at the top of the space is R57's). -/
def Obligations.MemWriteTouchesExactlyItsSpan : Prop :=
  ∀ (s : State) (addr : Word) (w : Width) (v : Word), s.mem.wf = true →
    ((addr.toNat + w.bytes ≤ 2 ^ 64 ∧ ∀ a, InSpan addr w.bytes a → s.mem.isInit a = true) →
      ∃ t, s.memWrite addr w v = .ok t
        ∧ (∀ k, k < w.bytes → t.mem.read (addr.toNat + k) = some (v.extractLsb' (8 * k) 8))
        ∧ (∀ a, ¬ InSpan addr w.bytes a → t.mem.read a = s.mem.read a)
        ∧ { t with mem := s.mem } = s)
      ∧ (¬ (addr.toNat + w.bytes ≤ 2 ^ 64 ∧ ∀ a, InSpan addr w.bytes a → s.mem.isInit a = true) →
        s.memWrite addr w v = .error (.uninitializedAccess addr w.bytes .write))

/-- Mixed widths: the parts of an eight-byte write read back narrower, and a one-byte write over an eight-byte location
replaces its low byte (20_memory.md rule R59, which the spec derives). -/
def Obligations.MixedWidthAccessesAgree : Prop :=
  ∀ (s t : State) (addr v : Word), s.mem.wf = true →
    (s.memWrite addr .w64 v = .ok t →
      t.memRead addr .w8 = .ok ((v.extractLsb' 0 8).setWidth 64)
        ∧ t.memRead (addr + 1) .w8 = .ok ((v.extractLsb' 8 8).setWidth 64)
        ∧ t.memRead addr .w16 = .ok ((v.extractLsb' 0 16).setWidth 64)
        ∧ t.memRead (addr + 4) .w32 = .ok ((v.extractLsb' 32 32).setWidth 64))
      ∧ ∀ u, s.memRead addr .w64 = .ok u → s.memWrite addr .w8 v = .ok t →
        t.memRead addr .w64 = .ok (u.extractLsb' 8 56 ++ v.extractLsb' 0 8)

/-- init_region makes its range valid and zero, an already initialised byte too, and touches nothing else; a range
that passes the top of the address space is refused whole (20_memory.md rule R52; the corner cases are the spec's own,
D7; what the error records beside address and length is log 15). -/
def Obligations.InitRegionMakesItsRangeValidAndZero : Prop :=
  ∀ (s : State) (addr : Word) (n : Nat), s.mem.wf = true →
    (addr.toNat + n ≤ 2 ^ 64 → ∃ t, s.initRegion addr n = .ok t
      ∧ (∀ a, InSpan addr n a → t.mem.read a = some 0)
      ∧ (∀ a, ¬ InSpan addr n a → t.mem.read a = s.mem.read a)
      ∧ { t with mem := s.mem } = s)
      ∧ (2 ^ 64 < addr.toNat + n → s.initRegion addr n = .error (.uninitializedAccess addr n .initRegion))

/-- The effective address is base plus index times scale plus displacement with 64-bit wrap-around, an absent base or
index counting as 0; base 0x1000 with displacement 2^64 - 1 gives 0x0FFF (20_memory.md rule R62). -/
def Obligations.EffectiveAddressWraps : Prop :=
  (∀ (s : State) (b j : RegIdx) (sc : Scale) (disp : Word),
    s.effectiveAddress (some b) (some j) sc disp = s.reg b + s.reg j * BitVec.ofNat 64 sc.factor + disp
      ∧ s.effectiveAddress (some b) none sc disp = s.reg b + disp
      ∧ s.effectiveAddress none (some j) sc disp = s.reg j * BitVec.ofNat 64 sc.factor + disp
      ∧ s.effectiveAddress none none sc disp = disp)
    ∧ ∀ (s : State) (b : RegIdx), s.reg b = 0x1000 →
      s.effectiveAddress (some b) none .x1 0xFFFFFFFFFFFFFFFF = 0x0FFF

/-- A Register descriptor resolves when its width is 1, 2, 4 or 8 bytes and raises RegisterWidth with the width in bits
otherwise; kind 3 raises UnsupportedOperandKind with the operand's index (30_encoding.md rules R84, R87). -/
def Obligations.RegisterAndUnknownDescriptorsResolve : Prop :=
  ∀ (s : State) (id : OpcodeId) (k : Nat) (i : RegIdx) (nb : BitVec 4),
    (nb = 1 → s.resolve id k (.reg i nb) = .ok (.reg i .w8))
      ∧ (nb = 2 → s.resolve id k (.reg i nb) = .ok (.reg i .w16))
      ∧ (nb = 4 → s.resolve id k (.reg i nb) = .ok (.reg i .w32))
      ∧ (nb = 8 → s.resolve id k (.reg i nb) = .ok (.reg i .w64))
      ∧ (nb ∉ [1, 2, 4, 8] → s.resolve id k (.reg i nb) = .error (.registerWidth (8 * nb.toNat)))
      ∧ s.resolve id k .unrecognised = .error (.unsupportedOperandKind k id)

/-- An immediate is masked to its declared width and sign-extended to the operand width; a declared width outside 1, 2,
4, 8 bytes raises UnsupportedOperandKind (30_encoding.md rules R86, R94; the spec's own, D16). -/
def Obligations.ImmediateSourceIsSignExtended : Prop :=
  ∀ (s : State) (id : OpcodeId) (k : Nat) (nb : BitVec 4) (pay : Word),
    (∀ wi w : Width, nb.toNat = wi.bytes → wi.bits ≤ w.bits →
      ∃ o v, s.resolve id k (.imm nb pay) = .ok o ∧ s.opRead id o w = .ok v
        ∧ v = ((pay.setWidth wi.bits).signExtend w.bits).setWidth 64)
      ∧ (nb ∉ [1, 2, 4, 8] → s.resolve id k (.imm nb pay) = .error (.unsupportedOperandKind k id))

/-- A register access by the host with a width other than 8, 16, 32, 64 raises RegisterWidth and reads or writes
nothing (10_state.md rule R27). -/
def Obligations.HostRegisterWidthOutOfRange : Prop :=
  ∀ (s : State) (i : RegIdx) (bits : Nat) (v : Word), s.status = .running → bits ∉ [8, 16, 32, 64] →
    hostRegRead i bits s = .error (.registerWidth bits) ∧ hostRegWrite i bits v s = .error (.registerWidth bits)

/-! ## Flags -/

/-- The flag merge: a flag in `set` becomes 1, one in `def` and not in `set` becomes 0, every other bit of FLAGS keeps
its value; and nothing is merged when the instruction raised (40_flag_engine.md rule R121). -/
def Obligations.FlagMergeWritesExactlyDef : Prop :=
  (∀ (s : State) (d m : Word) (k : Nat), m &&& ~~~d = 0 →
    ((s.mergeFlags d m).flags).getLsbD k = if d.getLsbD k then m.getLsbD k else s.flags.getLsbD k)
    ∧ ∀ (i : Instr) (s t : State) (e : Error), exec i s = .next t → t.raised = some e → t.flags = s.flags

/-- The engine never sets a flag it does not write, and writes none but the six flags (30_encoding.md rule R98,
40_flag_engine.md rule R110; the outputs are the spec's own, D15). -/
def Obligations.EngineSetsOnlyFlagsItWrites : Prop :=
  ∀ (op : EngineOp) (w : Width) (d s : Word),
    (afe op w d s).setMask &&& ~~~(afe op w d s).defMask = 0 ∧ (afe op w d s).defMask &&& ~~~all6 = 0

/-! ## ADD, SUB, CMP -/

/-- ADD in all nineteen variants completes with the sum modulo 2^W in its destination and the six flags by their
definitions (40_flag_engine.md rules R112 to R115, R117, R119): the sign, zero and parity of the result; carry when the
unsigned sum reaches 2^W; overflow when the operands' signs agree and the result's differs, which is when the true
signed sum does not fit W bits; auxiliary carry out of bit 3. -/
def Obligations.AddWritesTheSumAndSixFlags : Prop :=
  ∀ (i : Instr) (shape : AluShape) (w : Width) (f : Fields) (s : State) (dst src : Operand) (a b : Word),
    i.form = .alu2 .add shape w f → AluOperands .add shape w f s dst src a b →
    ∃ t, exec i s = .next t
      ∧ WritesBack (aluId .add shape w) dst w (atWidth w a + atWidth w b) s t
      ∧ ResultFlags w (atWidth w a + atWidth w b) t
      ∧ (t.flag .cf = true ↔ 2 ^ w.bits ≤ a.toNat + b.toNat)
      ∧ (t.flag .of = true ↔
        (atWidth w a).msb = (atWidth w b).msb ∧ (atWidth w a + atWidth w b).msb ≠ (atWidth w a).msb)
      ∧ (t.flag .of = true ↔ ¬ (-(2 : Int) ^ (w.bits - 1) ≤ (atWidth w a).toInt + (atWidth w b).toInt
        ∧ (atWidth w a).toInt + (atWidth w b).toInt < 2 ^ (w.bits - 1)))
      ∧ (t.flag .af = true ↔ 16 ≤ a.toNat % 16 + b.toNat % 16)
      ∧ OtherFlagBitsKept s t

/-- SUB in all nineteen variants completes with the difference modulo 2^W in its destination and the six flags: the
sign, zero and parity of the result; carry when the minuend is below the subtrahend; overflow when the true signed
difference does not fit; auxiliary carry when the low nibble borrows (41_add_sub_cmp.md rule R131; the subtraction's
CF, OF and AF are the spec's reading, D32). -/
def Obligations.SubWritesTheDifferenceAndSixFlags : Prop :=
  ∀ (i : Instr) (shape : AluShape) (w : Width) (f : Fields) (s : State) (dst src : Operand) (a b : Word),
    i.form = .alu2 .sub shape w f → AluOperands .sub shape w f s dst src a b →
    ∃ t, exec i s = .next t
      ∧ WritesBack (aluId .sub shape w) dst w (atWidth w a - atWidth w b) s t
      ∧ ResultFlags w (atWidth w a - atWidth w b) t
      ∧ (t.flag .cf = true ↔ a.toNat < b.toNat)
      ∧ (t.flag .of = true ↔ ¬ (-(2 : Int) ^ (w.bits - 1) ≤ (atWidth w a).toInt - (atWidth w b).toInt
        ∧ (atWidth w a).toInt - (atWidth w b).toInt < 2 ^ (w.bits - 1)))
      ∧ (t.flag .af = true ↔ a.toNat % 16 < b.toNat % 16)
      ∧ OtherFlagBitsKept s t

/-- CMP in all nineteen variants completes, writes nothing but the six flags, and sets them as SUB would
(41_add_sub_cmp.md rule R132; that a compare is a subtraction without write-back is the spec's own, D31, D32). -/
def Obligations.CmpWritesOnlyTheFlagsOfTheDifference : Prop :=
  ∀ (i : Instr) (shape : AluShape) (w : Width) (f : Fields) (s : State) (dst src : Operand) (a b : Word),
    i.form = .alu2 .cmp shape w f → AluOperands .cmp shape w f s dst src a b →
    ∃ t, exec i s = .next t
      ∧ t = { s with flags := t.flags, raised := none }
      ∧ ResultFlags w (atWidth w a - atWidth w b) t
      ∧ (t.flag .cf = true ↔ a.toNat < b.toNat)
      ∧ (t.flag .of = true ↔ ¬ (-(2 : Int) ^ (w.bits - 1) ≤ (atWidth w a).toInt - (atWidth w b).toInt
        ∧ (atWidth w a).toInt - (atWidth w b).toInt < 2 ^ (w.bits - 1)))
      ∧ (t.flag .af = true ↔ a.toNat % 16 < b.toNat % 16)
      ∧ OtherFlagBitsKept s t

/-- After CMP the flags order the operands: CF is unsigned less, ZF is equal, SF differs from OF exactly for signed less
(41_add_sub_cmp.md rule R132, the corner case the spec derives; D31, D32). -/
def Obligations.CmpFlagsOrderTheOperands : Prop :=
  ∀ (i : Instr) (shape : AluShape) (w : Width) (f : Fields) (s : State) (dst src : Operand) (a b : Word),
    i.form = .alu2 .cmp shape w f → AluOperands .cmp shape w f s dst src a b →
    ∃ t, exec i s = .next t
      ∧ (t.flag .cf = true ↔ atWidth w a < atWidth w b)
      ∧ (t.flag .zf = true ↔ a = b)
      ∧ (t.flag .sf ≠ t.flag .of ↔ (atWidth w a).toInt < (atWidth w b).toInt)

/-! ## AND, OR, XOR -/

/-- AND, OR and XOR in all nineteen variants each complete with the bitwise result in the destination; CF and OF become
0, SF, ZF and PF are the result's, AF is kept (42_logical.md rules R140 to R142; the flag sets are the spec's own, D30,
and AF unchanged is D5). -/
def Obligations.LogicWritesTheResultAndClearsCarryAndOverflow : Prop :=
  ∀ (i : Instr) (op : EngineOp) (shape : AluShape) (w : Width) (f : Fields) (s : State) (dst src : Operand)
    (a b : Word) (r : BitVec w.bits),
    (op = .and ∧ r = atWidth w a &&& atWidth w b) ∨ (op = .or ∧ r = atWidth w a ||| atWidth w b)
      ∨ (op = .xor ∧ r = atWidth w a ^^^ atWidth w b) →
    i.form = .alu2 op shape w f → AluOperands op shape w f s dst src a b →
    ∃ t, exec i s = .next t
      ∧ WritesBack (aluId op shape w) dst w r s t
      ∧ ResultFlags w r t
      ∧ t.flag .cf = false ∧ t.flag .of = false ∧ t.flag .af = s.flag .af
      ∧ OtherFlagBitsKept s t

/-- The same register view as source and destination: both operands are the old value. ADD doubles it, SUB and XOR give
0, AND and OR keep it, CMP writes no register; SUB, XOR and CMP leave ZF and PF set and CF, SF and OF clear, and SUB and CMP
clear AF (40_flag_engine.md rule R125). -/
def Obligations.SameRegisterTwiceUsesTheOldValueForBoth : Prop :=
  ∀ (i : Instr) (op : EngineOp) (shape : AluShape) (w : Width) (f : Fields) (s : State) (r : RegIdx)
    (nb0 nb1 : BitVec 4),
    (shape = .rmR ∨ shape = .rRm) → i.form = .alu2 op shape w f → i.wellFormed = true → s.status = .running →
    f.slot0.desc = .reg r nb0 → f.slot1.desc = .reg r nb1 →
    ∃ t, exec i s = .next t ∧ t.raised = none
      ∧ (op = .add → t.regs = (s.regWrite r w (BitVec.ofNat 64 (2 * (s.regRead r w).toNat))).regs)
      ∧ ((op = .sub ∨ op = .xor) → t.regs = (s.regWrite r w 0).regs)
      ∧ ((op = .and ∨ op = .or) → t.regs = (s.regWrite r w (s.regRead r w)).regs ∧ ResultFlags w (atWidth w (s.reg r)) t)
      ∧ (op = .cmp → t.regs = s.regs)
      ∧ ((op = .sub ∨ op = .xor ∨ op = .cmp) → t.flag .zf = true ∧ t.flag .pf = true ∧ t.flag .cf = false
        ∧ t.flag .sf = false ∧ t.flag .of = false)
      ∧ ((op = .sub ∨ op = .cmp) → t.flag .af = false)

/-! ## Shifts and rotates -/

/-- The raw count of a shift or rotate is 1, the old CL, or the immediate byte read as unsigned (40_flag_engine.md rule
R123, 43_shift_rotate.md rule R150; the count is the spec's own, D20). -/
def Obligations.ShiftCountIsOneClOrTheByte : Prop :=
  ∀ (op : EngineOp) (shape : ShiftShape) (w : Width) (f : Fields) (s : State),
    (Form.shift op shape w f).wellFormed = true →
    ∃ dst craw, s.shiftOperands (shiftId op shape w) shape w f = .ok (dst, craw)
      ∧ s.resolve (shiftId op shape w) 0 f.slot0.desc = .ok dst
      ∧ (shape = .rm1 → craw = 1)
      ∧ (shape = .rmCl → craw.toNat = (s.reg .rcx).toNat % 256)
      ∧ (shape = .rmImm8 → ∃ nb pay, f.slot1.desc = .imm nb pay ∧ craw.toNat = pay.toNat % 256)

/-- A zero masked count, for all five operations in all twelve variants: the destination's value is written back
unchanged and no flag changes; a 32-bit register destination has its upper half cleared by that write (43_shift_rotate.md
rule R156; the spec's own, D20). -/
def Obligations.ZeroCountWritesBackAndKeepsFlags : Prop :=
  ∀ (i : Instr) (op : EngineOp) (shape : ShiftShape) (w : Width) (f : Fields) (s : State) (dst : Operand)
    (a craw : Word),
    i.form = .shift op shape w f → ShiftOperands op shape w f s dst a craw → effectiveCount w craw = 0 →
    ∃ t, exec i s = .next t ∧ t.flags = s.flags
      ∧ WritesBack (shiftId op shape w) dst w (atWidth w a) s t
      ∧ (∀ r, dst = .reg r w → w = .w32 → t.reg r = ((s.reg r).extractLsb' 0 32).setWidth 64)
      ∧ (∀ r, dst = .reg r w → w ≠ .w32 → t.regs = s.regs)

/-- SHL by c >= 1 in all twelve variants: the value shifted left; CF is the last bit out, kept when c >= W; OF is written
for c = 1 only, set when the sign changed; SF, ZF, PF of the result; AF kept (43_shift_rotate.md rule R151; the spec's own,
D20, D21, D5). -/
def Obligations.ShlShiftsLeft : Prop :=
  ∀ (i : Instr) (shape : ShiftShape) (w : Width) (f : Fields) (s : State) (dst : Operand) (a craw : Word) (c : Nat),
    i.form = .shift .shl shape w f → ShiftOperands .shl shape w f s dst a craw → c = effectiveCount w craw → 1 ≤ c →
    ∃ t, exec i s = .next t
      ∧ WritesBack (shiftId .shl shape w) dst w (atWidth w a <<< c) s t
      ∧ ResultFlags w (atWidth w a <<< c) t
      ∧ t.flag .cf = (if c < w.bits then a.getLsbD (w.bits - c) else s.flag .cf)
      ∧ t.flag .of = (if c = 1 then (atWidth w a <<< c).msb != (atWidth w a).msb else s.flag .of)
      ∧ t.flag .af = s.flag .af ∧ OtherFlagBitsKept s t

/-- SHR by c >= 1 in all twelve variants: zeros enter at the top; CF is the last bit out, kept when c >= W; OF is written for
c = 1 only, the original sign; SF, ZF, PF of the result; AF kept (43_shift_rotate.md rule R152; the spec's own, D20, D21, D5). -/
def Obligations.ShrShiftsRightWithZeros : Prop :=
  ∀ (i : Instr) (shape : ShiftShape) (w : Width) (f : Fields) (s : State) (dst : Operand) (a craw : Word) (c : Nat),
    i.form = .shift .shr shape w f → ShiftOperands .shr shape w f s dst a craw → c = effectiveCount w craw → 1 ≤ c →
    ∃ t, exec i s = .next t
      ∧ WritesBack (shiftId .shr shape w) dst w (atWidth w a >>> c) s t
      ∧ ResultFlags w (atWidth w a >>> c) t
      ∧ t.flag .cf = (if c < w.bits then a.getLsbD (c - 1) else s.flag .cf)
      ∧ t.flag .of = (if c = 1 then (atWidth w a).msb else s.flag .of)
      ∧ t.flag .af = s.flag .af ∧ OtherFlagBitsKept s t

/-- SAR by c >= 1 in all twelve variants: copies of the sign enter at the top; CF is the last bit out, the sign when c >= W;
OF becomes 0 for c = 1 and is kept otherwise; SF, ZF, PF of the result; AF kept (43_shift_rotate.md rule R153; the spec's
own, D20, D5). -/
def Obligations.SarShiftsRightWithTheSign : Prop :=
  ∀ (i : Instr) (shape : ShiftShape) (w : Width) (f : Fields) (s : State) (dst : Operand) (a craw : Word) (c : Nat),
    i.form = .shift .sar shape w f → ShiftOperands .sar shape w f s dst a craw → c = effectiveCount w craw → 1 ≤ c →
    ∃ t, exec i s = .next t
      ∧ WritesBack (shiftId .sar shape w) dst w ((atWidth w a).sshiftRight c) s t
      ∧ ResultFlags w ((atWidth w a).sshiftRight c) t
      ∧ t.flag .cf = (if c < w.bits then a.getLsbD (c - 1) else (atWidth w a).msb)
      ∧ t.flag .of = (if c = 1 then false else s.flag .of)
      ∧ t.flag .af = s.flag .af ∧ OtherFlagBitsKept s t

/-- ROL by c >= 1 in all twelve variants: the value rotated left by c modulo W; CF is bit 0 of the result, also when the
value is unchanged; OF is written when the masked count is 1 only; SF, ZF, PF and AF are kept (43_shift_rotate.md rule R154;
the spec's own, D20, D5). -/
def Obligations.RolRotatesLeft : Prop :=
  ∀ (i : Instr) (shape : ShiftShape) (w : Width) (f : Fields) (s : State) (dst : Operand) (a craw : Word) (c : Nat),
    i.form = .shift .rol shape w f → ShiftOperands .rol shape w f s dst a craw → c = effectiveCount w craw → 1 ≤ c →
    ∃ t, exec i s = .next t
      ∧ WritesBack (shiftId .rol shape w) dst w ((atWidth w a).rotateLeft c) s t
      ∧ t.flag .cf = ((atWidth w a).rotateLeft c).getLsbD 0
      ∧ t.flag .of = (if c = 1 then ((atWidth w a).rotateLeft c).msb != ((atWidth w a).rotateLeft c).getLsbD 0
        else s.flag .of)
      ∧ t.flag .sf = s.flag .sf ∧ t.flag .zf = s.flag .zf ∧ t.flag .pf = s.flag .pf ∧ t.flag .af = s.flag .af
      ∧ OtherFlagBitsKept s t

/-- ROR by c >= 1 in all twelve variants: the value rotated right by c modulo W; CF is the top bit of the result; OF is
written when the masked count is 1 only, as the two top bits' difference; SF, ZF, PF and AF are kept (43_shift_rotate.md
rule R155; the spec's own, D20, D5). -/
def Obligations.RorRotatesRight : Prop :=
  ∀ (i : Instr) (shape : ShiftShape) (w : Width) (f : Fields) (s : State) (dst : Operand) (a craw : Word) (c : Nat),
    i.form = .shift .ror shape w f → ShiftOperands .ror shape w f s dst a craw → c = effectiveCount w craw → 1 ≤ c →
    ∃ t, exec i s = .next t
      ∧ WritesBack (shiftId .ror shape w) dst w ((atWidth w a).rotateRight c) s t
      ∧ t.flag .cf = ((atWidth w a).rotateRight c).msb
      ∧ t.flag .of = (if c = 1 then
          ((atWidth w a).rotateRight c).msb != ((atWidth w a).rotateRight c).getLsbD (w.bits - 2) else s.flag .of)
      ∧ t.flag .sf = s.flag .sf ∧ t.flag .zf = s.flag .zf ∧ t.flag .pf = s.flag .pf ∧ t.flag .af = s.flag .af
      ∧ OtherFlagBitsKept s t

/-! ## PUSH and POP -/

/-- PUSH of a 16-bit or 64-bit register: the stack pointer goes down by the width in bytes, modulo 2^64, and the register's
value from before lies at the new stack pointer, RSP's own too; every other byte, register and flag is as before
(44_stack.md rules R170, R173; PUSH RSP is the spec's own, D23). -/
def Obligations.PushStoresTheOldValueAtTheNewStackPointer : Prop :=
  ∀ (i : Instr) (w : Width) (f : Fields) (s : State) (r : RegIdx),
    i.form = .push w f → StackOperand (.push w f) f s r → s.mem.wf = true →
    s.mem.accessible (s.pushAddress w) w.bytes = true →
    ∃ t, exec i s = .next t ∧ t.raised = none
      ∧ t.reg .rsp = s.reg .rsp - BitVec.ofNat 64 w.bytes ∧ t.reg .rsp = s.pushAddress w
      ∧ (∀ k, k < w.bytes → t.mem.read ((s.pushAddress w).toNat + k) = some ((s.reg r).extractLsb' (8 * k) 8))
      ∧ (∀ a, ¬ InSpan (s.pushAddress w) w.bytes a → t.mem.read a = s.mem.read a)
      ∧ (∀ j, j ≠ RegIdx.rsp → t.reg j = s.reg j)
      ∧ t.flags = s.flags ∧ t.status = s.status ∧ SameLoop s t

/-- POP of a 16-bit or 64-bit register: the value is read at the stack pointer from before the pop, the stack pointer goes
up by the width in bytes, and the register is written last, so that a POP of RSP ends with the popped value over the
moved pointer; memory and flags are as before (44_stack.md rules R171, R173, C1; POP RSP is the spec's own, D23, C9). -/
def Obligations.PopReadsAtTheOldStackPointer : Prop :=
  ∀ (i : Instr) (w : Width) (f : Fields) (s : State) (r : RegIdx) (v : Word),
    i.form = .pop w f → StackOperand (.pop w f) f s r → s.memRead (s.reg .rsp) w = .ok v →
    ∃ t, exec i s = .next t ∧ t.raised = none
      ∧ (r ≠ .rsp → t.reg .rsp = s.reg .rsp + BitVec.ofNat 64 w.bytes)
      ∧ (∀ k, k < 64 → (t.reg r).getLsbD k = if k < w.bits then v.getLsbD k else
          (if r = .rsp then s.reg .rsp + BitVec.ofNat 64 w.bytes else s.reg r).getLsbD k)
      ∧ (∀ j, j ≠ r → j ≠ RegIdx.rsp → t.reg j = s.reg j)
      ∧ (∀ a, t.mem.read a = s.mem.read a)
      ∧ t.flags = s.flags ∧ t.status = s.status ∧ SameLoop s t

/-- The stack pointer and the data move together or not at all: a PUSH or POP that raises anything leaves every register
and every byte as it was, and one that succeeds has moved the stack pointer by the width, a POP of RSP apart (44_stack.md
rule R173). -/
def Obligations.PushAndPopAreAtomic : Prop :=
  ∀ (i : Instr) (w : Width) (f : Fields) (s t : State), (i.form = .push w f ∨ i.form = .pop w f) →
    exec i s = .next t →
    (∀ e, t.raised = some e → t.regs = s.regs ∧ t.mem = s.mem)
      ∧ (t.raised = none →
        (i.form = .push w f → t.reg .rsp = s.reg .rsp - BitVec.ofNat 64 w.bytes
          ∧ ∃ r nb, f.slot0.desc = .reg r nb
            ∧ t.mem = s.mem.writeLE (s.reg .rsp - BitVec.ofNat 64 w.bytes).toNat (s.regRead r w).toNat w.bytes)
        ∧ (i.form = .pop w f → ∃ r nb v, f.slot0.desc = .reg r nb ∧ s.memRead (s.reg .rsp) w = .ok v
            ∧ (t.reg r).setWidth w.bits = v.setWidth w.bits
            ∧ (r ≠ .rsp → t.reg .rsp = s.reg .rsp + BitVec.ofNat 64 w.bytes)))

/-- A PUSH or POP variant with 32-bit operand size raises Defect("32-bit push/pop"), with the record's ids, and changes
nothing (44_stack.md rule R172): the six rows PUSH and POP r32, rm32, imm_opsize32. -/
def Obligations.ThirtyTwoBitStackFormsAreDefects : Prop :=
  ∀ (i : Instr) (op : StackOp) (v : BitVec 8) (s : State), i.form = .defect32 op v → s.status = .running →
    (v = 0x02 ∨ v = 0x06 ∨ v = 0x0A) ∧ exec i s = .next (s.raise (.defect .stack32Bit ⟨op.mnemonicId, v⟩))

/-- A PUSH or POP variant that is not yet ported, and each of the five reserved mnemonic ids whatever its variant byte,
raises UnimplementedOpcode with the record's ids and changes nothing (30_encoding.md rules R90, R93, R95; which rows
these are is the spec's own, D14, D33). -/
def Obligations.UnportedAndReservedRowsAreUnimplemented : Prop :=
  ∀ (i : Instr) (s : State), s.status = .running →
    (∀ op v, i.form = .unported op v → exec i s = .next (s.raise (.unimplementedOpcode ⟨op.mnemonicId, v⟩)))
      ∧ (∀ m v, i.form = .reserved m v → m ∈ [0x02, 0x03, 0x12, 0x13, 0x16]
        ∧ exec i s = .next (s.raise (.unimplementedOpcode ⟨m, v⟩)))

/-! ## Frames and the order of errors -/

/-- What a two-operand instruction that succeeds leaves unchanged: every register but its destination register, every byte
of memory but the W/8 bytes at its destination's address, every bit of FLAGS but the six flags (for AND, OR, XOR also AF),
`status` and the run loop; CMP changes no register and no byte (40_flag_engine.md rule R122, 41_add_sub_cmp.md,
42_logical.md, 10_state.md rule R33; D5, D30, D31). -/
def Obligations.TwoOperandInstructionFrame : Prop :=
  ∀ (i : Instr) (op : EngineOp) (shape : AluShape) (w : Width) (f : Fields) (s t : State) (dst : Operand),
    i.form = .alu2 op shape w f → exec i s = .next t → t.raised = none → s.mem.wf = true →
    s.resolve (aluId op shape w) 0 f.slot0.desc = .ok dst →
    (∀ j, op = .cmp ∨ dst ≠ .reg j w → t.reg j = s.reg j)
      ∧ (∀ ea, dst = .mem ea → ∀ a, ¬ InSpan ea w.bytes a → t.mem.read a = s.mem.read a)
      ∧ ((op = .cmp ∨ ∀ ea, dst ≠ .mem ea) → ∀ a, t.mem.read a = s.mem.read a)
      ∧ OtherFlagBitsKept s t
      ∧ ((op = .and ∨ op = .or ∨ op = .xor) → t.flag .af = s.flag .af)
      ∧ t.status = s.status ∧ SameLoop s t

/-- What a shift or rotate that succeeds leaves unchanged: every register but its destination register, every byte of memory
but the W/8 bytes at its destination's address, AF and every bit of FLAGS but the six flags (for ROL and ROR also SF, ZF and PF),
`status` and the run loop (40_flag_engine.md rule R123, 43_shift_rotate.md, 10_state.md rule R33; D5, D20). -/
def Obligations.ShiftInstructionFrame : Prop :=
  ∀ (i : Instr) (op : EngineOp) (shape : ShiftShape) (w : Width) (f : Fields) (s t : State) (dst : Operand),
    i.form = .shift op shape w f → exec i s = .next t → t.raised = none → s.mem.wf = true →
    s.resolve (shiftId op shape w) 0 f.slot0.desc = .ok dst →
    (∀ j, dst ≠ .reg j w → t.reg j = s.reg j)
      ∧ (∀ ea, dst = .mem ea → ∀ a, ¬ InSpan ea w.bytes a → t.mem.read a = s.mem.read a)
      ∧ ((∀ ea, dst ≠ .mem ea) → ∀ a, t.mem.read a = s.mem.read a)
      ∧ OtherFlagBitsKept s t ∧ t.flag .af = s.flag .af
      ∧ ((op = .rol ∨ op = .ror) → t.flag .sf = s.flag .sf ∧ t.flag .zf = s.flag .zf ∧ t.flag .pf = s.flag .pf)
      ∧ t.status = s.status ∧ SameLoop s t

/-- The order in which a two-operand instruction's checks are met: operand count, reserved bits, operand 0, operand 1,
operand shape, the read of a memory destination, the read of a memory source; the first that fails is the error taken
(40_flag_engine.md rule R122, 60_exceptions.md rule R189; the order is the spec's own, D18). -/
def Obligations.TwoOperandErrorsComeInOrder : Prop :=
  ∀ (i : Instr) (op : EngineOp) (shape : AluShape) (w : Width) (f : Fields) (s : State),
    i.form = .alu2 op shape w f → s.status = .running →
    let id := aluId op shape w
    (f.opcount ≠ 2 → exec i s = .next (s.raise (.defect .operandCount id)))
      ∧ (f.opcount = 2 → f.slot0.reserved ≠ 0 ∨ f.slot1.reserved ≠ 0 →
        exec i s = .next (s.raise (.defect .reservedBits id)))
      ∧ (f.opcount = 2 → f.slot0.reserved = 0 → f.slot1.reserved = 0 →
        (∀ e, s.resolve id 0 f.slot0.desc = .error e → exec i s = .next (s.raise e))
          ∧ (∀ dst, s.resolve id 0 f.slot0.desc = .ok dst →
            (∀ e, s.resolve id 1 f.slot1.desc = .error e → exec i s = .next (s.raise e))
              ∧ (∀ src, s.resolve id 1 f.slot1.desc = .ok src →
                (fits2 shape w dst src = false → exec i s = .next (s.raise (.defect .operandShape id)))
                  ∧ (∀ ea, fits2 shape w dst src = true → dst = .mem ea → s.mem.accessible ea w.bytes = false →
                    exec i s = .next (s.raise (.uninitializedAccess ea w.bytes .read)))
                  ∧ (∀ ea, fits2 shape w dst src = true → src = .mem ea → s.mem.accessible ea w.bytes = false →
                    exec i s = .next (s.raise (.uninitializedAccess ea w.bytes .read))))))

/-- The order in which a shift's checks are met: operand count, reserved bits of the slots in use, operand 0, the count
operand, destination shape, count shape, the read of a memory destination (40_flag_engine.md rule R123, 60_exceptions.md
rule R189; the order is the spec's own, D18). -/
def Obligations.ShiftErrorsComeInOrder : Prop :=
  ∀ (i : Instr) (op : EngineOp) (shape : ShiftShape) (w : Width) (f : Fields) (s : State),
    i.form = .shift op shape w f → s.status = .running →
    let id := shiftId op shape w
    let two := shape ≠ .rm1
    (f.opcount ≠ shape.opcount → exec i s = .next (s.raise (.defect .operandCount id)))
      ∧ (f.opcount = shape.opcount → f.slot0.reserved ≠ 0 ∨ (two ∧ f.slot1.reserved ≠ 0) →
        exec i s = .next (s.raise (.defect .reservedBits id)))
      ∧ (f.opcount = shape.opcount → f.slot0.reserved = 0 → (two → f.slot1.reserved = 0) →
        (∀ e, s.resolve id 0 f.slot0.desc = .error e → exec i s = .next (s.raise e))
          ∧ (∀ dst, s.resolve id 0 f.slot0.desc = .ok dst →
            (∀ e, two → s.resolve id 1 f.slot1.desc = .error e → exec i s = .next (s.raise e))
              ∧ (shape = .rm1 → dst.isRegOrMem w = false → exec i s = .next (s.raise (.defect .operandShape id)))
              ∧ (∀ cnt, two → s.resolve id 1 f.slot1.desc = .ok cnt →
                dst.isRegOrMem w = false ∨ (shape = .rmCl ∧ cnt ≠ .reg .rcx .w8)
                  ∨ (shape = .rmImm8 ∧ ∀ v, cnt ≠ .imm v .w8) →
                exec i s = .next (s.raise (.defect .operandShape id)))
              ∧ (∀ ea, (Form.shift op shape w f).wellFormed = true → dst = .mem ea →
                s.mem.accessible ea w.bytes = false →
                exec i s = .next (s.raise (.uninitializedAccess ea w.bytes .read)))))

/-- The order in which PUSH and POP meet their checks: operand count, reserved bits, the operand, its shape, then the
access: for PUSH the write at the new stack pointer, for POP the read at the old one (44_stack.md rules R170, R171,
60_exceptions.md rule R189; the order is the spec's own, D18). -/
def Obligations.StackErrorsComeInOrder : Prop :=
  ∀ (i : Instr) (op : StackOp) (w : Width) (f : Fields) (s : State),
    (op = .push ∧ i.form = .push w f) ∨ (op = .pop ∧ i.form = .pop w f) → s.status = .running →
    let id := stackId op w
    (f.opcount ≠ 1 → exec i s = .next (s.raise (.defect .operandCount id)))
      ∧ (f.opcount = 1 → f.slot0.reserved ≠ 0 → exec i s = .next (s.raise (.defect .reservedBits id)))
      ∧ (f.opcount = 1 → f.slot0.reserved = 0 →
        (∀ e, s.resolve id 0 f.slot0.desc = .error e → exec i s = .next (s.raise e))
          ∧ (∀ o, s.resolve id 0 f.slot0.desc = .ok o →
            ((∀ r, o ≠ .reg r w) → exec i s = .next (s.raise (.defect .operandShape id)))
              ∧ (∀ r, o = .reg r w → op = .push → s.mem.accessible (s.pushAddress w) w.bytes = false →
                exec i s = .next (s.raise (.uninitializedAccess (s.pushAddress w) w.bytes .write)))
              ∧ (∀ r, o = .reg r w → op = .pop → s.mem.accessible (s.reg .rsp) w.bytes = false →
                exec i s = .next (s.raise (.uninitializedAccess (s.reg .rsp) w.bytes .read)))))
end

