-- ==== Sys2Proof/Laws/Memory.lean ====
section
/-! SUPPORT. The memory operations: read after insert, what a multi-byte write leaves, and that every operation keeps the
canonical form. -/

namespace Sys2Proof.Machine.Memory

/-! ## One byte -/

@[simp] theorem read_nil (a : Nat) : read [] a = none := rfl

theorem read_cons (m : Memory) (b : Nat) (v : Byte) (a : Nat) :
    read ((b, v) :: m) a = if a = b then some v else read m a := rfl

theorem above_of_le {m : Memory} {a b : Nat} (h : b ≤ a) (hm : above a m = true) : above b m = true := by
  induction m with
  | nil => rfl
  | cons c m ih =>
    simp only [above, Bool.and_eq_true, decide_eq_true_eq] at hm ⊢
    exact ⟨by omega, ih hm.2⟩

/-- Below every listed address nothing is initialised. -/
theorem read_of_above {m : Memory} {a b : Nat} (hb : b ≤ a) (hm : above a m = true) : read m b = none := by
  induction m with
  | nil => rfl
  | cons c m ih =>
    simp only [above, Bool.and_eq_true, decide_eq_true_eq] at hm
    rw [read_cons, if_neg (by omega)]
    exact ih hm.2

theorem read_insert (m : Memory) (a : Nat) (v : Byte) (b : Nat) (hm : m.wf = true) :
    read (m.insert a v) b = if b = a then some v else read m b := by
  induction m with
  | nil => simp [insert, read_cons]
  | cons c m ih =>
    obtain ⟨c, u⟩ := c
    simp only [wf, Bool.and_eq_true, decide_eq_true_eq] at hm
    simp only [insert]
    split
    · rw [read_cons]
    · split
      · subst_vars
        simp only [read_cons]
        split <;> rfl
      · rw [read_cons, ih hm.2]
        simp only [read_cons]
        split
        · rw [if_neg (by omega)]
        · rfl

theorem above_insert {m : Memory} {a b : Nat} {v : Byte} (hab : b < a) (hm : above b m = true) :
    above b (m.insert a v) = true := by
  induction m with
  | nil => simp [insert, above, hab]
  | cons c m ih =>
    obtain ⟨c, u⟩ := c
    simp only [above, Bool.and_eq_true, decide_eq_true_eq] at hm
    simp only [insert]
    split
    · simp [above, hab, hm]
    · split
      · simp [above, hab, hm]
      · simp [above, hm.1, ih hm.2]

theorem wf_insert {m : Memory} {a : Nat} {v : Byte} (ha : a < Config.addressSpace) (hm : m.wf = true) :
    (m.insert a v).wf = true := by
  induction m with
  | nil => simpa [insert, wf, above] using ha
  | cons c m ih =>
    obtain ⟨c, u⟩ := c
    simp only [wf, Bool.and_eq_true, decide_eq_true_eq] at hm
    simp only [insert]
    split
    · simp only [wf, above, Bool.and_eq_true, decide_eq_true_eq]
      exact ⟨⟨ha, ‹_›, above_of_le (Nat.le_of_lt ‹_›) hm.1.2⟩, hm⟩
    · split
      · subst_vars
        simp only [wf, Bool.and_eq_true, decide_eq_true_eq]
        exact hm
      · simp only [wf, Bool.and_eq_true, decide_eq_true_eq]
        exact ⟨⟨hm.1.1, above_insert (by omega) hm.1.2⟩, ih hm.2⟩

/-! ## Several bytes -/

theorem wf_writeLE {m : Memory} {a v n : Nat} (h : a + n ≤ Config.addressSpace) (hm : m.wf = true) :
    (m.writeLE a v n).wf = true := by
  induction n generalizing m a v with
  | zero => exact hm
  | succ n ih => exact ih (by omega) (wf_insert (by omega) hm)

theorem wf_zeroFill {m : Memory} {a n : Nat} (h : a + n ≤ Config.addressSpace) (hm : m.wf = true) :
    (m.zeroFill a n).wf = true := by
  induction n generalizing m a with
  | zero => exact hm
  | succ n ih => exact ih (by omega) (wf_insert (by omega) hm)

/-- Every byte after a multi-byte write: byte k of the value inside the span, the old byte outside. -/
theorem read_writeLE {m : Memory} {a v n : Nat} (b : Nat) (h : a + n ≤ Config.addressSpace) (hm : m.wf = true) :
    read (m.writeLE a v n) b =
      if a ≤ b ∧ b < a + n then some (BitVec.ofNat 8 (v >>> (8 * (b - a)))) else read m b := by
  induction n generalizing m a v with
  | zero => rw [if_neg (by omega)]; rfl
  | succ n ih =>
    rw [writeLE, ih (by omega) (wf_insert (by omega) hm), read_insert m a _ b hm]
    by_cases hb : b = a
    · subst hb
      simp
    · rw [if_neg hb]
      by_cases hin : a + 1 ≤ b ∧ b < a + 1 + n
      · rw [if_pos hin, if_pos (by omega)]
        have : b - a = b - (a + 1) + 1 := by omega
        rw [this, Nat.mul_add, Nat.add_comm (8 * _), Nat.shiftRight_add, Nat.shiftRight_eq_div_pow v]
      · rw [if_neg hin, if_neg (by omega)]

/-- Every byte after an initialisation: 0 inside the range, the old byte outside. -/
theorem read_zeroFill {m : Memory} {a n : Nat} (b : Nat) (h : a + n ≤ Config.addressSpace) (hm : m.wf = true) :
    read (m.zeroFill a n) b = if a ≤ b ∧ b < a + n then some 0 else read m b := by
  induction n generalizing m a with
  | zero => rw [if_neg (by omega)]; rfl
  | succ n ih =>
    rw [zeroFill, ih (by omega) (wf_insert (by omega) hm), read_insert m a _ b hm]
    by_cases hb : b = a
    · subst hb
      simp
    · rw [if_neg hb]
      by_cases hin : a + 1 ≤ b ∧ b < a + 1 + n
      · rw [if_pos hin, if_pos (by omega)]
      · rw [if_neg hin, if_neg (by omega)]

theorem allInit_iff {m : Memory} {a n : Nat} :
    m.allInit a n = true ↔ ∀ b, a ≤ b → b < a + n → (read m b).isSome = true := by
  induction n generalizing a with
  | zero => exact ⟨fun _ b h1 h2 => absurd h1 (by omega), fun _ => rfl⟩
  | succ n ih =>
    simp only [allInit, isInit, Bool.and_eq_true, ih]
    constructor
    · rintro ⟨h0, h⟩ b h1 h2
      rcases Nat.eq_or_lt_of_le h1 with rfl | h1
      · exact h0
      · exact h b h1 (by omega)
    · intro h
      exact ⟨h a (Nat.le_refl _) (by omega), fun b h1 h2 => h b (by omega) (by omega)⟩

/-- A little-endian sum of n bytes is below 2^(8n). -/
theorem readLE_lt (m : Memory) (a n : Nat) : m.readLE a n < 2 ^ (8 * n) := by
  induction n generalizing a with
  | zero => simp [readLE]
  | succ n ih =>
    have h1 := ih (a + 1)
    have h2 := ((read m a).getD 0).isLt
    rw [readLE, Nat.mul_add, Nat.pow_add]
    omega

/-- Byte k of the sum is the byte at address a + k. -/
theorem readLE_byte {m : Memory} {a n k : Nat} (hk : k < n) :
    BitVec.ofNat 8 (m.readLE a n >>> (8 * k)) = (read m (a + k)).getD 0 := by
  induction n generalizing a k with
  | zero => omega
  | succ n ih =>
    rw [readLE]
    cases k with
    | zero =>
      apply BitVec.eq_of_toNat_eq
      simpa [Nat.add_mul_mod_self_left] using ((read m a).getD 0).isLt
    | succ k =>
      have hb := ((read m a).getD 0).isLt
      rw [Nat.mul_add, Nat.mul_one, Nat.add_comm (8 * k), Nat.shiftRight_add, Nat.shiftRight_eq_div_pow _ 8,
        Nat.add_mul_div_left _ _ (by decide), Nat.div_eq_of_lt hb, Nat.zero_add, ih (by omega)]
      congr 2
      omega

/-- The sum of n bytes that are those of a number is its low 8n bits. -/
theorem readLE_of_bytes {m : Memory} {a v n : Nat}
    (h : ∀ b, a ≤ b → b < a + n → read m b = some (BitVec.ofNat 8 (v >>> (8 * (b - a))))) :
    m.readLE a n = v % 2 ^ (8 * n) := by
  induction n generalizing a v with
  | zero => simp [readLE, Nat.mod_one]
  | succ n ih =>
    rw [readLE, h a (Nat.le_refl _) (by omega), ih (v := v / 2 ^ 8)]
    · have : (2 : Nat) ^ (8 * (n + 1)) = 2 ^ 8 * 2 ^ (8 * n) := by rw [← Nat.pow_add]; congr 1; omega
      rw [this, Nat.mod_mul]
      simp
    · intro b h1 h2
      rw [h b (by omega) (by omega)]
      congr 2
      have : b - a = b - (a + 1) + 1 := by omega
      rw [this, Nat.mul_add, Nat.add_comm (8 * _), Nat.shiftRight_add, Nat.shiftRight_eq_div_pow v]

/-- Reading what was written gives its low n bytes. -/
theorem readLE_writeLE {m : Memory} {a v n : Nat} (h : a + n ≤ Config.addressSpace) (hm : m.wf = true) :
    (m.writeLE a v n).readLE a n = v % 2 ^ (8 * n) :=
  readLE_of_bytes fun b h1 h2 => by rw [read_writeLE b h hm, if_pos ⟨h1, h2⟩]

/-- A write inside an initialised span leaves the set of initialised bytes as it was. -/
theorem isInit_writeLE {m : Memory} {a v n : Nat} (b : Nat) (h : a + n ≤ Config.addressSpace) (hm : m.wf = true)
    (hi : m.allInit a n = true) : (m.writeLE a v n).isInit b = m.isInit b := by
  rw [isInit, isInit, read_writeLE b h hm]
  split
  · rename_i hb
    rw [allInit_iff.mp hi b hb.1 hb.2]
    rfl
  · rfl

end Sys2Proof.Machine.Memory
end

