-- ==== Sys2Proof/Laws/State.lean ====
section
/-! SUPPORT. What each update of the state does to each field. -/

namespace Sys2Proof.Machine.State

variable (s : State) (e : Error) (i j : RegIdx) (v d m : Word) (rest : List Record) (r : Record)

section Raise
@[simp] theorem raise_regs : (s.raise e).regs = s.regs := rfl
@[simp] theorem raise_flags : (s.raise e).flags = s.flags := rfl
@[simp] theorem raise_mem : (s.raise e).mem = s.mem := rfl
@[simp] theorem raise_status : (s.raise e).status = e.statusAfter s.status := rfl
@[simp] theorem raise_stream : (s.raise e).stream = s.stream := rfl
@[simp] theorem raise_index : (s.raise e).index = s.index := rfl
@[simp] theorem raise_raised : (s.raise e).raised = some e := rfl
@[simp] theorem raise_run : (s.raise e).run = s.run := rfl
@[simp] theorem raise_skipUnimplemented : (s.raise e).skipUnimplemented = s.skipUnimplemented := rfl
@[simp] theorem raise_hosted : (s.raise e).hosted = s.hosted := rfl
end Raise

section Succeed
@[simp] theorem succeed_regs : s.succeed.regs = s.regs := rfl
@[simp] theorem succeed_flags : s.succeed.flags = s.flags := rfl
@[simp] theorem succeed_mem : s.succeed.mem = s.mem := rfl
@[simp] theorem succeed_status : s.succeed.status = s.status := rfl
@[simp] theorem succeed_stream : s.succeed.stream = s.stream := rfl
@[simp] theorem succeed_index : s.succeed.index = s.index := rfl
@[simp] theorem succeed_raised : s.succeed.raised = none := rfl
@[simp] theorem succeed_run : s.succeed.run = s.run := rfl
@[simp] theorem succeed_skipUnimplemented : s.succeed.skipUnimplemented = s.skipUnimplemented := rfl
@[simp] theorem succeed_hosted : s.succeed.hosted = s.hosted := rfl
end Succeed

section SetReg
@[simp] theorem setReg_flags : (s.setReg i v).flags = s.flags := rfl
@[simp] theorem setReg_mem : (s.setReg i v).mem = s.mem := rfl
@[simp] theorem setReg_status : (s.setReg i v).status = s.status := rfl
@[simp] theorem setReg_stream : (s.setReg i v).stream = s.stream := rfl
@[simp] theorem setReg_index : (s.setReg i v).index = s.index := rfl
@[simp] theorem setReg_raised : (s.setReg i v).raised = s.raised := rfl
@[simp] theorem setReg_run : (s.setReg i v).run = s.run := rfl
@[simp] theorem setReg_skipUnimplemented : (s.setReg i v).skipUnimplemented = s.skipUnimplemented := rfl
@[simp] theorem setReg_hosted : (s.setReg i v).hosted = s.hosted := rfl

@[simp] theorem reg_setReg_same : (s.setReg i v).reg i = v := by simp [reg, setReg]

theorem reg_setReg_ne (h : j ≠ i) : (s.setReg i v).reg j = s.reg j := by
  have : i.val ≠ j.val := fun e => h (Fin.ext e.symm)
  simp [reg, setReg, this]

theorem reg_setReg : (s.setReg i v).reg j = if j = i then v else s.reg j := by
  split
  · simp [*]
  · simp [reg_setReg_ne, *]
end SetReg

section MergeFlags
@[simp] theorem mergeFlags_regs : (s.mergeFlags d m).regs = s.regs := rfl
@[simp] theorem mergeFlags_flags : (s.mergeFlags d m).flags = Machine.mergeFlags s.flags d m := rfl
@[simp] theorem mergeFlags_mem : (s.mergeFlags d m).mem = s.mem := rfl
@[simp] theorem mergeFlags_status : (s.mergeFlags d m).status = s.status := rfl
@[simp] theorem mergeFlags_stream : (s.mergeFlags d m).stream = s.stream := rfl
@[simp] theorem mergeFlags_index : (s.mergeFlags d m).index = s.index := rfl
@[simp] theorem mergeFlags_raised : (s.mergeFlags d m).raised = s.raised := rfl
@[simp] theorem mergeFlags_run : (s.mergeFlags d m).run = s.run := rfl
@[simp] theorem mergeFlags_skipUnimplemented :
    (s.mergeFlags d m).skipUnimplemented = s.skipUnimplemented := rfl
@[simp] theorem mergeFlags_hosted : (s.mergeFlags d m).hosted = s.hosted := rfl
end MergeFlags

section Loop
@[simp] theorem continueRun_regs : (s.continueRun rest).regs = s.regs := rfl
@[simp] theorem continueRun_flags : (s.continueRun rest).flags = s.flags := rfl
@[simp] theorem continueRun_mem : (s.continueRun rest).mem = s.mem := rfl
@[simp] theorem continueRun_status : (s.continueRun rest).status = s.status := rfl
@[simp] theorem continueRun_stream : (s.continueRun rest).stream = rest := rfl
@[simp] theorem continueRun_index : (s.continueRun rest).index = s.index + 1 := rfl
@[simp] theorem continueRun_raised : (s.continueRun rest).raised = s.raised := rfl
@[simp] theorem continueRun_run : (s.continueRun rest).run = s.run := rfl
@[simp] theorem stopRun_regs : (s.stopRun e).regs = s.regs := rfl
@[simp] theorem stopRun_flags : (s.stopRun e).flags = s.flags := rfl
@[simp] theorem stopRun_mem : (s.stopRun e).mem = s.mem := rfl
@[simp] theorem stopRun_status : (s.stopRun e).status = s.status := rfl
@[simp] theorem stopRun_stream : (s.stopRun e).stream = s.stream := rfl
@[simp] theorem stopRun_index : (s.stopRun e).index = s.index := rfl
@[simp] theorem stopRun_raised : (s.stopRun e).raised = s.raised := rfl
@[simp] theorem stopRun_run : (s.stopRun e).run = .stopped s.index e := rfl
@[simp] theorem completeRun_regs : s.completeRun.regs = s.regs := rfl
@[simp] theorem completeRun_flags : s.completeRun.flags = s.flags := rfl
@[simp] theorem completeRun_mem : s.completeRun.mem = s.mem := rfl
@[simp] theorem completeRun_status : s.completeRun.status = s.status := rfl
@[simp] theorem completeRun_stream : s.completeRun.stream = s.stream := rfl
@[simp] theorem completeRun_index : s.completeRun.index = s.index := rfl
@[simp] theorem completeRun_raised : s.completeRun.raised = s.raised := rfl
@[simp] theorem completeRun_run : s.completeRun.run = .completed s.index := rfl
@[simp] theorem withRecord_regs : (s.withRecord r).regs = s.regs := rfl
@[simp] theorem withRecord_flags : (s.withRecord r).flags = s.flags := rfl
@[simp] theorem withRecord_mem : (s.withRecord r).mem = s.mem := rfl
@[simp] theorem withRecord_status : (s.withRecord r).status = s.status := rfl
@[simp] theorem withRecord_stream : (s.withRecord r).stream = r :: s.stream.tail := rfl
@[simp] theorem withRecord_run : (s.withRecord r).run = .active := rfl
end Loop

/-- A state is its ten fields. -/
theorem eq_of_fields {s t : State} (h1 : t.regs = s.regs) (h2 : t.flags = s.flags) (h3 : t.mem = s.mem)
    (h4 : t.status = s.status) (h5 : t.stream = s.stream) (h6 : t.index = s.index) (h7 : t.raised = s.raised)
    (h8 : t.run = s.run) (h9 : t.skipUnimplemented = s.skipUnimplemented) (h10 : t.hosted = s.hosted) : t = s := by
  cases s; cases t; simp_all

end Sys2Proof.Machine.State
end

