-- ==== Sys2Proof/Laws/Ops.lean ====
section
/-! SUPPORT. One lemma for each shared operation that says all it can do: delivering an outcome, the checks, memory
access, register views, resolving, reading and writing an operand. Callers cite these and unfold no operation. -/

namespace Sys2Proof.Machine

/-! ## Delivering -/

/-- What a delivered outcome is when it is a next state. -/
theorem deliver_next {s t : State} {o : Except Error State} (h : deliver s o = .next t) :
    s.status = .running ∧ ((∃ u, o = .ok u ∧ t = u.succeed) ∨ ∃ e, o = .error e ∧ t = s.raise e) := by
  unfold deliver at h
  split at h
  · cases h
  · cases o with
    | ok u => exact ⟨‹_›, .inl ⟨u, rfl, by simpa using h.symm⟩⟩
    | error e => exact ⟨‹_›, .inr ⟨e, rfl, by simpa using h.symm⟩⟩

@[simp] theorem deliver_ok {s t : State} (hs : s.status = .running) : deliver s (.ok t) = .next t.succeed := by
  simp [deliver, hs]

@[simp] theorem deliver_error {s : State} {e : Error} (hs : s.status = .running) :
    deliver s (.error e) = .next (s.raise e) := by
  simp [deliver, hs]

theorem deliver_aborted {s : State} {o : Except Error State} (hs : s.status = .aborted) :
    deliver s o = .fault .aborted := by
  simp [deliver, hs]

@[simp] theorem check_true (e : Error) : check true e = .ok () := rfl
@[simp] theorem check_false (e : Error) : check false e = .error e := rfl

theorem check_ok {c : Bool} {e : Error} {u : Unit} (h : check c e = .ok u) : c = true := by
  cases c
  · cases h
  · rfl

/-- A sequence that succeeds succeeds in both parts. -/
theorem bind_ok {α β : Type} {x : Except Error α} {k : α → Except Error β} {b : β} (h : (x >>= k) = .ok b) :
    ∃ a, x = .ok a ∧ k a = .ok b := by
  cases x with
  | error e => cases h
  | ok a => exact ⟨a, rfl, h⟩

@[simp] theorem ok_bind {α β : Type} (a : α) (k : α → Except Error β) : ((.ok a : Except Error α) >>= k) = k a := rfl
@[simp] theorem error_bind {α β : Type} (e : Error) (k : α → Except Error β) :
    ((.error e : Except Error α) >>= k) = .error e := rfl

theorem statusAfter_defect (which : Invariant) (id : OpcodeId) (st : Status) :
    Error.statusAfter (.defect which id) st = .aborted := rfl

/-- Only a defect aborts. -/
theorem statusAfter_eq_aborted {e : Error} :
    e.statusAfter .running = .aborted ↔ ∃ which id, e = .defect which id := by
  cases e <;> simp [Error.statusAfter, Error.category]

/-! ## Memory access -/

theorem accessible_iff {m : Memory} {addr : Word} {n : Nat} :
    m.accessible addr n = true ↔
      addr.toNat + n ≤ Config.addressSpace ∧ ∀ a, InSpan addr n a → (m.read a).isSome = true := by
  simp [Memory.accessible, Memory.allInit_iff, InSpan]

theorem memRead_ok {s : State} {addr v : Word} {w : Width} (h : s.memRead addr w = .ok v) :
    s.mem.accessible addr w.bytes = true ∧ v = BitVec.ofNat 64 (s.mem.readLE addr.toNat w.bytes) := by
  unfold State.memRead at h
  split at h
  · exact ⟨‹_›, by simpa using h.symm⟩
  · cases h

theorem memWrite_ok {s t : State} {addr v : Word} {w : Width} (h : s.memWrite addr w v = .ok t) :
    s.mem.accessible addr w.bytes = true
      ∧ t = { s with mem := s.mem.writeLE addr.toNat v.toNat w.bytes } := by
  unfold State.memWrite at h
  split at h
  · exact ⟨‹_›, by simpa using h.symm⟩
  · cases h

theorem bits_eq (w : Width) : w.bits = 8 * w.bytes := by cases w <;> rfl
theorem bytes_le (w : Width) : w.bytes ≤ 8 := by cases w <;> decide
theorem bytes_pos (w : Width) : 0 < w.bytes := by cases w <;> decide
theorem bits_le (w : Width) : w.bits ≤ 64 := by cases w <;> decide
theorem bits_pos (w : Width) : 0 < w.bits := by cases w <;> decide

/-- The value read is the little-endian sum: it fits W bits. -/
theorem memRead_toNat {s : State} {addr v : Word} {w : Width} (h : s.memRead addr w = .ok v) :
    v.toNat = s.mem.readLE addr.toNat w.bytes := by
  obtain ⟨-, rfl⟩ := memRead_ok h
  have h1 := Memory.readLE_lt s.mem addr.toNat w.bytes
  have h2 : (2 : Nat) ^ (8 * w.bytes) ≤ 2 ^ 64 :=
    Nat.pow_le_pow_right (by decide) (by have := bytes_le w; omega)
  simp only [BitVec.toNat_ofNat]
  exact Nat.mod_eq_of_lt (Nat.lt_of_lt_of_le h1 h2)

/-! ## Views -/

/-- The low W bits as a number. -/
theorem lowBits_toNat (w : Width) (v : Word) : (lowBits w v).toNat = v.toNat % 2 ^ w.bits := by
  cases w <;> simp [lowBits, Width.bits, Nat.mod_eq_of_lt v.isLt] <;> omega

theorem lowBits_eq (w : Width) (v : Word) : lowBits w v = (v.setWidth w.bits).setWidth 64 := by
  apply BitVec.eq_of_toNat_eq
  have h2 : (2 : Nat) ^ w.bits ≤ 2 ^ 64 := Nat.pow_le_pow_right (by decide) (bits_le w)
  have h1 : v.toNat % 2 ^ w.bits < 2 ^ w.bits := Nat.mod_lt _ (Nat.two_pow_pos _)
  rw [lowBits_toNat, BitVec.toNat_setWidth, BitVec.toNat_setWidth, Nat.mod_eq_of_lt (Nat.lt_of_lt_of_le h1 h2)]

theorem getLsbD_lowBits (w : Width) (v : Word) (k : Nat) :
    (lowBits w v).getLsbD k = (decide (k < w.bits) && v.getLsbD k) := by
  rw [lowBits_eq, BitVec.getLsbD_setWidth, BitVec.getLsbD_setWidth]
  have := bits_le w
  by_cases h : k < w.bits
  · simp [h, show k < 64 by omega]
  · simp [h]

/-- Every bit of a cell after a write of a view (R24 to R26). -/
theorem getLsbD_writeView (w : Width) (old v : Word) (k : Nat) :
    (writeView w old v).getLsbD k =
      if k < w.bits then v.getLsbD k else decide (w ≠ .w32) && old.getLsbD k := by
  cases w with
  | w8 =>
    simp only [writeView, Width.bits, BitVec.getLsbD_append, BitVec.getLsbD_extractLsb']
    by_cases h : k < 8
    · simp [h]
    · by_cases h2 : k < 64
      · simp [h, show k - 8 < 56 by omega, show 8 + (k - 8) = k by omega]
      · simp [h, show ¬ (k - 8 < 56) by omega, BitVec.getLsbD_of_ge old k (by omega)]
  | w16 =>
    simp only [writeView, Width.bits, BitVec.getLsbD_append, BitVec.getLsbD_extractLsb']
    by_cases h : k < 16
    · simp [h]
    · by_cases h2 : k < 64
      · simp [h, show k - 16 < 48 by omega, show 16 + (k - 16) = k by omega]
      · simp [h, show ¬ (k - 16 < 48) by omega, BitVec.getLsbD_of_ge old k (by omega)]
  | w32 =>
    simp only [writeView, Width.bits, BitVec.getLsbD_setWidth, BitVec.getLsbD_extractLsb']
    by_cases h : k < 32
    · simp [h, show k < 64 by omega]
    · simp [h]
  | w64 =>
    simp only [writeView, Width.bits]
    by_cases h : k < 64
    · simp [h]
    · simp [h, BitVec.getLsbD_of_ge v k (by omega), BitVec.getLsbD_of_ge old k (by omega)]

theorem reg_regWrite_same (s : State) (i : RegIdx) (w : Width) (v : Word) :
    (s.regWrite i w v).reg i = writeView w (s.reg i) v := by
  simp [State.regWrite]

theorem reg_regWrite_ne (s : State) {i j : RegIdx} (w : Width) (v : Word) (h : j ≠ i) :
    (s.regWrite i w v).reg j = s.reg j :=
  State.reg_setReg_ne _ _ _ _ h

/-! ## Operands -/

theorem widthOfBytes_bytes (w : Width) : widthOfBytes w.bytes = some w := by cases w <;> rfl

theorem widthOfBytes_eq {n : Nat} {w : Width} : widthOfBytes n = some w ↔ n = w.bytes := by
  constructor
  · unfold widthOfBytes
    intro h
    split at h <;> rename_i h1
    · cases h; exact h1
    · split at h <;> rename_i h2
      · cases h; exact h2
      · split at h <;> rename_i h3
        · cases h; exact h3
        · split at h <;> rename_i h4
          · cases h; exact h4
          · cases h
  · rintro rfl
    exact widthOfBytes_bytes w

/-- What resolving a descriptor can give. -/
theorem resolve_ok {s : State} {id : OpcodeId} {k : Nat} {d : Desc} {o : Operand} (h : s.resolve id k d = .ok o) :
    (∃ i nb w, d = .reg i nb ∧ nb.toNat = w.bytes ∧ o = .reg i w)
      ∨ (∃ b j sc disp, d = .mem b j sc disp ∧ o = .mem (s.effectiveAddress b j sc disp))
      ∨ (∃ nb w pay, d = .imm nb pay ∧ nb.toNat = w.bytes ∧ o = .imm (lowBits w pay) w) := by
  cases d with
  | reg i nb =>
    simp only [State.resolve] at h
    split at h
    · cases h; exact .inl ⟨i, nb, _, rfl, widthOfBytes_eq.mp ‹_›, rfl⟩
    · cases h
  | mem b j sc disp => cases h; exact .inr (.inl ⟨b, j, sc, disp, rfl, rfl⟩)
  | imm nb pay =>
    simp only [State.resolve] at h
    split at h
    · cases h; exact .inr (.inr ⟨nb, _, pay, rfl, widthOfBytes_eq.mp ‹_›, rfl⟩)
    · cases h
  | unrecognised => cases h

/-- What reading an operand can give. -/
theorem opRead_ok {s : State} {id : OpcodeId} {o : Operand} {w : Width} {v : Word} (h : s.opRead id o w = .ok v) :
    (∃ i, o = .reg i w ∧ v = s.regRead i w) ∨ (∃ ea, o = .mem ea ∧ s.memRead ea w = .ok v)
      ∨ ∃ u nb, o = .imm u nb ∧ v = lowBits w (signExtend nb u) := by
  cases o with
  | reg i wr =>
    simp only [State.opRead] at h
    split at h
    · subst_vars; cases h; exact .inl ⟨i, rfl, rfl⟩
    · cases h
  | mem ea => exact .inr (.inl ⟨ea, rfl, h⟩)
  | imm u nb => cases h; exact .inr (.inr ⟨u, nb, rfl, rfl⟩)

/-- What writing an operand can do. -/
theorem opWrite_ok {s t : State} {id : OpcodeId} {o : Operand} {w : Width} {v : Word}
    (h : s.opWrite id o w v = .ok t) :
    (∃ i, o = .reg i w ∧ t = s.regWrite i w v)
      ∨ ∃ ea, o = .mem ea ∧ s.mem.accessible ea w.bytes = true
          ∧ t = { s with mem := s.mem.writeLE ea.toNat v.toNat w.bytes } := by
  cases o with
  | reg i wr =>
    simp only [State.opWrite] at h
    split at h
    · subst_vars; cases h; exact .inl ⟨i, rfl, rfl⟩
    · cases h
  | mem ea => exact .inr ⟨ea, rfl, memWrite_ok h⟩
  | imm u nb => cases h

/-- A destination that was read can be written (R68). -/
theorem opWrite_of_opRead {s : State} {id : OpcodeId} {o : Operand} {w : Width} {a : Word} (v : Word)
    (h : s.opRead id o w = .ok a) (ho : ∀ u nb, o ≠ .imm u nb) : ∃ t, s.opWrite id o w v = .ok t := by
  rcases opRead_ok h with ⟨i, rfl, -⟩ | ⟨ea, rfl, hr⟩ | ⟨u, nb, rfl, -⟩
  · exact ⟨_, if_pos rfl⟩
  · exact ⟨_, if_pos (memRead_ok hr).1⟩
  · exact absurd rfl (ho u nb)

/-- A value read is a W-bit value. -/
theorem opRead_lt {s : State} {id : OpcodeId} {o : Operand} {w : Width} {a : Word} (h : s.opRead id o w = .ok a) :
    a.toNat < 2 ^ w.bits := by
  have hlow : ∀ x, (lowBits w x).toNat < 2 ^ w.bits := fun x => by
    rw [lowBits_toNat]; exact Nat.mod_lt _ (Nat.two_pow_pos _)
  rcases opRead_ok h with ⟨i, -, rfl⟩ | ⟨ea, -, hr⟩ | ⟨u, nb, -, rfl⟩
  · exact hlow _
  · rw [memRead_toNat hr, bits_eq]; exact Memory.readLE_lt _ _ _
  · exact hlow _

end Sys2Proof.Machine
end

