-- ==== Sys2Proof/Laws/Templates.lean ====
section
/-! SUPPORT. The handler templates: what a success says of the operands, and what a well-formed instruction computes. -/

namespace Sys2Proof.Machine

/-! ## What a well-formed descriptor resolves to -/

theorem resolve_isReg {s : State} {id : OpcodeId} {k : Nat} {d : Desc} {w : Width} (h : d.isReg w = true) :
    ∃ i nb, d = .reg i nb ∧ s.resolve id k d = .ok (.reg i w) := by
  cases d with
  | reg i nb =>
    have hn : nb.toNat = w.bytes := by simpa [Desc.isReg] using h
    exact ⟨i, nb, rfl, by simp [State.resolve, hn, widthOfBytes_bytes]⟩
  | mem => cases h
  | imm => cases h
  | unrecognised => cases h

theorem resolve_isFixedReg {s : State} {id : OpcodeId} {k : Nat} {d : Desc} {i : RegIdx} {w : Width}
    (h : d.isFixedReg i w = true) : s.resolve id k d = .ok (.reg i w) := by
  cases d with
  | reg j nb =>
    have hn : j = i ∧ nb.toNat = w.bytes := by simpa [Desc.isFixedReg] using h
    simp [State.resolve, hn, widthOfBytes_bytes]
  | mem => cases h
  | imm => cases h
  | unrecognised => cases h

theorem resolve_isRegOrMem {s : State} {id : OpcodeId} {k : Nat} {d : Desc} {w : Width}
    (h : d.isRegOrMem w = true) :
    (∃ i, s.resolve id k d = .ok (.reg i w)) ∨ ∃ ea, s.resolve id k d = .ok (.mem ea) := by
  cases d with
  | reg i nb =>
    have hn : nb.toNat = w.bytes := by simpa [Desc.isRegOrMem] using h
    exact .inl ⟨i, by simp [State.resolve, hn, widthOfBytes_bytes]⟩
  | mem b j sc disp => exact .inr ⟨_, rfl⟩
  | imm => cases h
  | unrecognised => cases h

theorem resolve_isImm {s : State} {id : OpcodeId} {k : Nat} {d : Desc} {w : Width}
    (h : d.isImm w.bytes = true) : ∃ nb pay, d = .imm nb pay ∧ s.resolve id k d = .ok (.imm (lowBits w pay) w) := by
  cases d with
  | imm nb pay =>
    have hn : nb.toNat = w.bytes := by simpa [Desc.isImm] using h
    exact ⟨nb, pay, rfl, by simp [State.resolve, hn, widthOfBytes_bytes]⟩
  | reg => cases h
  | mem => cases h
  | unrecognised => cases h

/-- The width of the immediate of `acc_imm` and `rm_imm` (R91). -/
def immWidth : Width → Width
  | .w8 => .w8
  | .w16 => .w16
  | .w32 => .w32
  | .w64 => .w32

theorem immWidth_bytes (w : Width) : (immWidth w).bytes = w.immBytes := by cases w <;> rfl
theorem immWidth_bytes' (w : Width) : (immWidth w).bytes = immBytes w := by cases w <;> rfl

/-- The operands of a well-formed two-operand instruction resolve, and fit its shape. -/
theorem resolve_wellFormed {op : EngineOp} {shape : AluShape} {w : Width} {f : Fields} {s : State}
    (h : (Form.alu2 op shape w f).wellFormed = true) (id : OpcodeId) :
    ∃ dst src, s.resolve id 0 f.slot0.desc = .ok dst ∧ s.resolve id 1 f.slot1.desc = .ok src
      ∧ fits2 shape w dst src = true := by
  simp only [Form.wellFormed, Bool.and_eq_true] at h
  obtain ⟨⟨-, h0⟩, h1⟩ := h
  cases shape with
  | rmR =>
    obtain ⟨j, _, _, hj⟩ := resolve_isReg (s := s) (id := id) (k := 1) h1
    rcases resolve_isRegOrMem (s := s) (id := id) (k := 0) h0 with ⟨i, hi⟩ | ⟨ea, hi⟩ <;>
      exact ⟨_, _, hi, hj, by simp [fits2, Operand.isRegOrMem, Operand.isReg]⟩
  | rRm =>
    obtain ⟨i, _, _, hi⟩ := resolve_isReg (s := s) (id := id) (k := 0) h0
    rcases resolve_isRegOrMem (s := s) (id := id) (k := 1) h1 with ⟨j, hj⟩ | ⟨ea, hj⟩ <;>
      exact ⟨_, _, hi, hj, by simp [fits2, Operand.isRegOrMem, Operand.isReg]⟩
  | accImm =>
    have hi := resolve_isFixedReg (s := s) (id := id) (k := 0) h0
    rw [AluShape.srcFits, ← immWidth_bytes] at h1
    obtain ⟨_, _, _, hj⟩ := resolve_isImm (s := s) (id := id) (k := 1) h1
    exact ⟨_, _, hi, hj, by simp [fits2, Operand.isFixedReg, Operand.isImm, immWidth_bytes']⟩
  | rmImm =>
    rw [AluShape.srcFits, ← immWidth_bytes] at h1
    obtain ⟨_, _, _, hj⟩ := resolve_isImm (s := s) (id := id) (k := 1) h1
    rcases resolve_isRegOrMem (s := s) (id := id) (k := 0) h0 with ⟨i, hi⟩ | ⟨ea, hi⟩ <;>
      exact ⟨_, _, hi, hj, by simp [fits2, Operand.isRegOrMem, Operand.isImm, immWidth_bytes']⟩
  | rmImm8 =>
    obtain ⟨_, _, _, hj⟩ := resolve_isImm (s := s) (id := id) (k := 1) (w := .w8) h1
    rcases resolve_isRegOrMem (s := s) (id := id) (k := 0) h0 with ⟨i, hi⟩ | ⟨ea, hi⟩ <;>
      exact ⟨_, _, hi, hj, by simp [fits2, Operand.isRegOrMem, Operand.isImm, Width.bytes]⟩

/-- The count and the reserved bits of a well-formed two-operand instruction. -/
theorem header_wellFormed {op : EngineOp} {shape : AluShape} {w : Width} {f : Fields}
    (h : (Form.alu2 op shape w f).wellFormed = true) :
    (f.opcount == 2) = true ∧ (f.slot0.reserved == 0) = true ∧ (f.slot1.reserved == 0) = true := by
  simp only [Form.wellFormed, Bool.and_eq_true] at h
  exact ⟨h.1.1.1.1, h.1.1.1.2, h.1.1.2⟩

theorem checkReserved_of {id : OpcodeId} {slot : Slot} (h : (slot.reserved == 0) = true) :
    checkReserved id slot = .ok () := by
  rw [checkReserved, h]; rfl

/-! ## Exec2 -/

/-- A two-operand instruction whose operands are read commits the engine's outputs (R122). -/
theorem exec2_eq_commit {op : EngineOp} {shape : AluShape} {w : Width} {f : Fields} {s : State}
    {dst src : Operand} {a b : Word} (h : AluOperands op shape w f s dst src a b) :
    exec2 op shape w f s = s.commit (aluId op shape w) dst w (afe op w a b) := by
  obtain ⟨-, hwf, hd, hs, ha, hb⟩ := h
  obtain ⟨h2, hr0, hr1⟩ := header_wellFormed hwf
  obtain ⟨dst', src', hd', hs', hfit⟩ := resolve_wellFormed (s := s) hwf (aluId op shape w)
  rw [hd] at hd'
  rw [hs] at hs'
  cases hd'
  cases hs'
  unfold exec2
  simp only [h2, check_true, ok_bind, checkReserved_of hr0, checkReserved_of hr1, hd, hs, hfit, ha, hb]

/-- What a successful two-operand instruction did. -/
theorem exec2_ok {op : EngineOp} {shape : AluShape} {w : Width} {f : Fields} {s t : State}
    (h : exec2 op shape w f s = .ok t) :
    ∃ dst src a b, s.resolve (aluId op shape w) 0 f.slot0.desc = .ok dst
      ∧ s.resolve (aluId op shape w) 1 f.slot1.desc = .ok src
      ∧ fits2 shape w dst src = true
      ∧ s.opRead (aluId op shape w) dst w = .ok a ∧ s.opRead (aluId op shape w) src w = .ok b
      ∧ s.commit (aluId op shape w) dst w (afe op w a b) = .ok t := by
  unfold exec2 at h
  obtain ⟨-, -, h⟩ := bind_ok h
  obtain ⟨-, -, h⟩ := bind_ok h
  obtain ⟨-, -, h⟩ := bind_ok h
  obtain ⟨dst, hd, h⟩ := bind_ok h
  obtain ⟨src, hs, h⟩ := bind_ok h
  obtain ⟨_, hf, h⟩ := bind_ok h
  obtain ⟨a, ha, h⟩ := bind_ok h
  obtain ⟨b, hb, h⟩ := bind_ok h
  exact ⟨dst, src, a, b, hd, hs, check_ok hf, ha, hb, h⟩

/-- What a commit did: the operand written, or not, then the flags merged. -/
theorem commit_ok {s t : State} {id : OpcodeId} {dst : Operand} {w : Width} {out : EngineOut}
    (h : s.commit id dst w out = .ok t) :
    (out.wb = true ∧ ∃ u, s.opWrite id dst w out.result = .ok u ∧ t = u.mergeFlags out.defMask out.setMask)
      ∨ (out.wb = false ∧ t = s.mergeFlags out.defMask out.setMask) := by
  unfold State.commit at h
  split at h
  · refine .inl ⟨‹_›, ?_⟩
    cases hw : s.opWrite id dst w out.result with
    | error e => rw [hw] at h; cases h
    | ok u => rw [hw] at h; cases h; exact ⟨u, rfl, rfl⟩
  · cases h
    exact .inr ⟨Bool.eq_false_iff.mpr ‹_›, rfl⟩

theorem commit_wb {s u : State} {id : OpcodeId} {dst : Operand} {w : Width} {out : EngineOut}
    (hwb : out.wb = true) (hw : s.opWrite id dst w out.result = .ok u) :
    s.commit id dst w out = .ok (u.mergeFlags out.defMask out.setMask) := by
  simp [State.commit, hwb, hw, Except.map]

theorem commit_noWb {s : State} {id : OpcodeId} {dst : Operand} {w : Width} {out : EngineOut}
    (hwb : out.wb = false) : s.commit id dst w out = .ok (s.mergeFlags out.defMask out.setMask) := by
  simp [State.commit, hwb]

/-! ## ExecShift -/

theorem shiftOperands_ok {s : State} {id : OpcodeId} {shape : ShiftShape} {w : Width} {f : Fields}
    {dst : Operand} {craw : Word} (h : s.shiftOperands id shape w f = .ok (dst, craw)) :
    s.resolve id 0 f.slot0.desc = .ok dst ∧ dst.isRegOrMem w = true := by
  have counted : ∀ k, s.countedOperands id w f k = .ok (dst, craw) →
      s.resolve id 0 f.slot0.desc = .ok dst ∧ dst.isRegOrMem w = true := by
    intro k h
    unfold State.countedOperands at h
    obtain ⟨-, -, h⟩ := bind_ok h
    obtain ⟨-, -, h⟩ := bind_ok h
    obtain ⟨-, -, h⟩ := bind_ok h
    obtain ⟨d, hd, h⟩ := bind_ok h
    obtain ⟨cnt, -, h⟩ := bind_ok h
    obtain ⟨_, hf, h⟩ := bind_ok h
    obtain ⟨c, -, h⟩ := bind_ok h
    cases h
    exact ⟨hd, check_ok hf⟩
  cases shape with
  | rm1 =>
    unfold State.shiftOperands State.oneOperand at h
    obtain ⟨-, -, h⟩ := bind_ok h
    obtain ⟨-, -, h⟩ := bind_ok h
    obtain ⟨d, hd, h⟩ := bind_ok h
    obtain ⟨_, hf, h⟩ := bind_ok h
    cases h
    exact ⟨hd, check_ok hf⟩
  | rmCl => exact counted _ h
  | rmImm8 => exact counted _ h

/-- A shift whose operands are read commits the engine's outputs (R123). -/
theorem execShift_eq_commit {op : EngineOp} {shape : ShiftShape} {w : Width} {f : Fields} {s : State}
    {dst : Operand} {a craw : Word} (h : ShiftOperands op shape w f s dst a craw) :
    execShift op shape w f s = s.commit (shiftId op shape w) dst w (afe op w a craw) := by
  obtain ⟨-, -, hd, ha⟩ := h
  unfold execShift
  simp only [hd, ok_bind, ha]

/-- What a successful shift did. -/
theorem execShift_ok {op : EngineOp} {shape : ShiftShape} {w : Width} {f : Fields} {s t : State}
    (h : execShift op shape w f s = .ok t) :
    ∃ dst craw a, s.shiftOperands (shiftId op shape w) shape w f = .ok (dst, craw)
      ∧ s.opRead (shiftId op shape w) dst w = .ok a
      ∧ s.commit (shiftId op shape w) dst w (afe op w a craw) = .ok t := by
  unfold execShift at h
  obtain ⟨⟨dst, craw⟩, hd, h⟩ := bind_ok h
  obtain ⟨a, ha, h⟩ := bind_ok h
  exact ⟨dst, craw, a, hd, ha, h⟩

/-! ## PUSH and POP -/

/-- The operand of a stack handler that passed its checks is a register view of width W. -/
theorem stackOperand_ok {s : State} {id : OpcodeId} {w : Width} {f : Fields} {o : Operand}
    (h : s.stackOperand id w f = .ok o) :
    s.resolve id 0 f.slot0.desc = .ok o ∧ ∃ i, o = .reg i w := by
  unfold State.stackOperand at h
  obtain ⟨-, -, h⟩ := bind_ok h
  obtain ⟨-, -, h⟩ := bind_ok h
  obtain ⟨o', ho, h⟩ := bind_ok h
  obtain ⟨_, hf, h⟩ := bind_ok h
  cases h
  refine ⟨ho, ?_⟩
  have := check_ok hf
  cases o with
  | reg i wr => exact ⟨i, by simpa [Operand.isReg] using this⟩
  | mem => cases this
  | imm => cases this

theorem pushHandler_ok {w : Width} {f : Fields} {s t : State} (h : pushHandler w f s = .ok t) :
    ∃ i, s.resolve (stackId .push w) 0 f.slot0.desc = .ok (.reg i w)
      ∧ s.mem.accessible (s.pushAddress w) w.bytes = true
      ∧ t = { s with mem := s.mem.writeLE (s.pushAddress w).toNat (s.regRead i w).toNat w.bytes }.setReg .rsp
          (s.pushAddress w) := by
  unfold pushHandler at h
  obtain ⟨o, ho, h⟩ := bind_ok h
  obtain ⟨hr, i, rfl⟩ := stackOperand_ok ho
  obtain ⟨v, hv, h⟩ := bind_ok h
  obtain ⟨u, hu, h⟩ := bind_ok h
  cases h
  obtain ⟨hacc, rfl⟩ := memWrite_ok hu
  have hvi : v = s.regRead i w := by simpa [State.opRead] using hv.symm
  subst hvi
  exact ⟨i, hr, hacc, rfl⟩

theorem popHandler_ok {w : Width} {f : Fields} {s t : State} (h : popHandler w f s = .ok t) :
    ∃ i v, s.resolve (stackId .pop w) 0 f.slot0.desc = .ok (.reg i w)
      ∧ s.memRead (s.reg .rsp) w = .ok v
      ∧ t = (s.setReg .rsp (s.popAddress w)).regWrite i w v := by
  unfold popHandler at h
  obtain ⟨o, ho, h⟩ := bind_ok h
  obtain ⟨hr, i, rfl⟩ := stackOperand_ok ho
  obtain ⟨v, hv, h⟩ := bind_ok h
  refine ⟨i, v, hr, hv, ?_⟩
  simpa [State.opWrite] using h.symm

/-- The operand of a well-formed PUSH or POP. -/
theorem stackOperand_of {s : State} {id : OpcodeId} {w : Width} {f : Fields} {r : RegIdx} {nb : BitVec 4}
    (h1 : (f.opcount == 1) = true) (h2 : (f.slot0.reserved == 0) = true) (h3 : f.slot0.desc.isReg w = true)
    (hd : f.slot0.desc = .reg r nb) : s.stackOperand id w f = .ok (.reg r w) := by
  have hn : nb.toNat = w.bytes := by simpa [hd, Desc.isReg] using h3
  unfold State.stackOperand
  rw [h1, checkReserved_of h2]
  simp [hd, State.resolve, hn, widthOfBytes_bytes, Operand.isReg]

end Sys2Proof.Machine
end

