-- ==== Sys2Proof/Laws/Dispatch.lean ====
section
/-! SUPPORT. Every arm of `exec` delivers the outcome of its row's template: one lemma that later proofs cite in place of
a case split over the 195 constructors. -/

namespace Sys2Proof.Machine

/-- The outcome of a form's handler, or the error of a row that dispatch refuses. -/
def formOutcome (s : State) : Form → Except Error State
  | .alu2 op shape w f => exec2 op shape w f s
  | .shift op shape w f => execShift op shape w f s
  | .push w f => pushHandler w f s
  | .pop w f => popHandler w f s
  | .defect32 op v => .error (.defect .stack32Bit ⟨op.mnemonicId, v⟩)
  | .unported op v => .error (.unimplementedOpcode ⟨op.mnemonicId, v⟩)
  | .reserved m v => .error (.unimplementedOpcode ⟨m, v⟩)

theorem exec_eq_deliver (i : Instr) (s : State) : exec i s = deliver s (formOutcome s i.form) := by
  cases i <;> rfl

theorem exec_of_form {i : Instr} {s : State} {g : Form} (h : i.form = g) :
    exec i s = deliver s (formOutcome s g) := by
  rw [exec_eq_deliver, h]

/-- What an instruction that gives a next state did: its handler succeeded, or it raised. -/
theorem exec_next {i : Instr} {s t : State} (h : exec i s = .next t) :
    s.status = .running
      ∧ ((∃ u, formOutcome s i.form = .ok u ∧ t = u.succeed)
        ∨ ∃ e, formOutcome s i.form = .error e ∧ t = s.raise e) := by
  rw [exec_eq_deliver] at h
  exact deliver_next h

/-- What every handler that succeeds leaves alone, and that its memory stays in canonical form with the same
initialised bytes. -/
structure HandlerKeeps (s t : State) : Prop where
  status : t.status = s.status
  stream : t.stream = s.stream
  index : t.index = s.index
  raised : t.raised = s.raised
  run : t.run = s.run
  skipUnimplemented : t.skipUnimplemented = s.skipUnimplemented
  hosted : t.hosted = s.hosted
  wf : s.mem.wf = true → t.mem.wf = true
  isInit : s.mem.wf = true → ∀ a, t.mem.isInit a = s.mem.isInit a

theorem HandlerKeeps.refl (s : State) : HandlerKeeps s s :=
  ⟨rfl, rfl, rfl, rfl, rfl, rfl, rfl, id, fun _ _ => rfl⟩

theorem handlerKeeps_write {s : State} {addr v : Word} {w : Width}
    (h : s.mem.accessible addr w.bytes = true) :
    HandlerKeeps s { s with mem := s.mem.writeLE addr.toNat v.toNat w.bytes } := by
  simp only [Memory.accessible, Bool.and_eq_true, decide_eq_true_eq] at h
  exact ⟨rfl, rfl, rfl, rfl, rfl, rfl, rfl, Memory.wf_writeLE h.1, fun hm a => Memory.isInit_writeLE a h.1 hm h.2⟩

theorem handlerKeeps_setReg {s t : State} (h : HandlerKeeps s t) (i : RegIdx) (v : Word) :
    HandlerKeeps s (t.setReg i v) :=
  ⟨h.status, h.stream, h.index, h.raised, h.run, h.skipUnimplemented, h.hosted, h.wf, h.isInit⟩

theorem handlerKeeps_mergeFlags {s t : State} (h : HandlerKeeps s t) (d m : Word) :
    HandlerKeeps s (t.mergeFlags d m) :=
  ⟨h.status, h.stream, h.index, h.raised, h.run, h.skipUnimplemented, h.hosted, h.wf, h.isInit⟩

theorem handlerKeeps_opWrite {s t : State} {id : OpcodeId} {o : Operand} {w : Width} {v : Word}
    (h : s.opWrite id o w v = .ok t) : HandlerKeeps s t := by
  rcases opWrite_ok h with ⟨i, -, rfl⟩ | ⟨ea, -, hacc, rfl⟩
  · exact handlerKeeps_setReg (.refl s) _ _
  · exact handlerKeeps_write hacc

theorem handlerKeeps_commit {s t : State} {id : OpcodeId} {dst : Operand} {w : Width} {out : EngineOut}
    (h : s.commit id dst w out = .ok t) : HandlerKeeps s t := by
  rcases commit_ok h with ⟨-, u, hu, rfl⟩ | ⟨-, rfl⟩
  · exact handlerKeeps_mergeFlags (handlerKeeps_opWrite hu) _ _
  · exact handlerKeeps_mergeFlags (.refl s) _ _

theorem handlerKeeps_formOutcome {s t : State} {g : Form} (h : formOutcome s g = .ok t) : HandlerKeeps s t := by
  cases g with
  | alu2 op shape w f =>
    obtain ⟨_, _, _, _, -, -, -, -, -, h⟩ := exec2_ok h
    exact handlerKeeps_commit h
  | shift op shape w f =>
    obtain ⟨_, _, _, -, -, h⟩ := execShift_ok h
    exact handlerKeeps_commit h
  | push w f =>
    obtain ⟨i, -, hacc, rfl⟩ := pushHandler_ok h
    exact handlerKeeps_setReg (handlerKeeps_write hacc) _ _
  | pop w f =>
    obtain ⟨i, v, -, -, rfl⟩ := popHandler_ok h
    exact handlerKeeps_setReg (handlerKeeps_setReg (.refl s) _ _) _ _
  | defect32 op v => cases h
  | unported op v => cases h
  | reserved m v => cases h

end Sys2Proof.Machine
end

