-- ==== Sys2Proof/Laws/Errors.lean ====
section
/-! SUPPORT. Which errors each shared operation can raise (60_exceptions.md rules R182 to R186, R189). -/

namespace Sys2Proof.Machine

variable {s : State} {id : OpcodeId} {w : Width} {f : Fields} {e : Error}

/-- A sequence that fails fails in its first part, or in its second after the first succeeded. -/
theorem bind_error {α β : Type} {x : Except Error α} {k : α → Except Error β} (h : (x >>= k) = .error e) :
    x = .error e ∨ ∃ a, x = .ok a ∧ k a = .error e := by
  cases x with
  | error e' => rw [error_bind] at h; cases h; exact .inl rfl
  | ok a => exact .inr ⟨a, rfl, h⟩

theorem check_error {c : Bool} {e' : Error} (h : check c e' = .error e) : c = false ∧ e = e' := by
  cases c
  · cases h; exact ⟨rfl, rfl⟩
  · cases h

theorem memRead_error {addr : Word} (h : s.memRead addr w = .error e) :
    s.mem.accessible addr w.bytes = false ∧ e = .uninitializedAccess addr w.bytes .read := by
  unfold State.memRead at h
  split at h
  · cases h
  · cases h; exact ⟨Bool.eq_false_iff.mpr ‹_›, rfl⟩

theorem memWrite_error {addr v : Word} (h : s.memWrite addr w v = .error e) :
    s.mem.accessible addr w.bytes = false ∧ e = .uninitializedAccess addr w.bytes .write := by
  unfold State.memWrite at h
  split at h
  · cases h
  · cases h; exact ⟨Bool.eq_false_iff.mpr ‹_›, rfl⟩

theorem resolve_error {k : Nat} {d : Desc} (h : s.resolve id k d = .error e) :
    (∃ bits, e = .registerWidth bits) ∨ e = .unsupportedOperandKind k id := by
  cases d with
  | reg i nb =>
    simp only [State.resolve] at h
    split at h <;> cases h
    exact .inl ⟨_, rfl⟩
  | mem => cases h
  | imm nb pay =>
    simp only [State.resolve] at h
    split at h <;> cases h
    exact .inr rfl
  | unrecognised => cases h; exact .inr rfl

theorem opRead_error {o : Operand} (h : s.opRead id o w = .error e) :
    (∃ i wr, o = .reg i wr ∧ wr ≠ w ∧ e = .defect .operandSize id)
      ∨ ∃ ea, o = .mem ea ∧ e = .uninitializedAccess ea w.bytes .read := by
  cases o with
  | reg i wr =>
    simp only [State.opRead] at h
    split at h <;> cases h
    exact .inl ⟨i, wr, rfl, ‹_›, rfl⟩
  | mem ea => exact .inr ⟨ea, rfl, (memRead_error h).2⟩
  | imm => cases h

theorem opWrite_error {o : Operand} {v : Word} (h : s.opWrite id o w v = .error e) :
    (∃ i wr, o = .reg i wr ∧ wr ≠ w ∧ e = .defect .operandSize id)
      ∨ (∃ ea, o = .mem ea ∧ e = .uninitializedAccess ea w.bytes .write)
      ∨ ∃ u nb, o = .imm u nb ∧ e = .defect .immediateDestination id := by
  cases o with
  | reg i wr =>
    simp only [State.opWrite] at h
    split at h <;> cases h
    exact .inl ⟨i, wr, rfl, ‹_›, rfl⟩
  | mem ea => exact .inr (.inl ⟨ea, rfl, (memWrite_error h).2⟩)
  | imm u nb => cases h; exact .inr (.inr ⟨u, nb, rfl, rfl⟩)

theorem commit_error {o : Operand} {out : EngineOut} (h : s.commit id o w out = .error e) :
    s.opWrite id o w out.result = .error e := by
  unfold State.commit at h
  split at h
  · cases hw : s.opWrite id o w out.result with
    | error e' => rw [hw] at h; cases h; rfl
    | ok u => rw [hw] at h; cases h
  · cases h

/-- The checks before a stack access raise a defect or an operand error. -/
theorem stackOperand_error (h : s.stackOperand id w f = .error e) :
    (∃ which, e = .defect which id) ∨ s.resolve id 0 f.slot0.desc = .error e := by
  unfold State.stackOperand at h
  rcases bind_error h with h | ⟨_, -, h⟩
  · exact .inl ⟨_, (check_error h).2⟩
  rcases bind_error h with h | ⟨_, -, h⟩
  · exact .inl ⟨_, (check_error h).2⟩
  rcases bind_error h with h | ⟨_, -, h⟩
  · exact .inr h
  rcases bind_error h with h | ⟨_, -, h⟩
  · exact .inl ⟨_, (check_error h).2⟩
  cases h

/-- The checks before a shift raise a defect or an operand error. -/
theorem shiftOperands_error {shape : ShiftShape} (h : s.shiftOperands id shape w f = .error e) :
    (∃ which, e = .defect which id) ∨ s.resolve id 0 f.slot0.desc = .error e
      ∨ s.resolve id 1 f.slot1.desc = .error e := by
  have counted : ∀ g : Operand → Except Error Word, (∀ o e, g o = .error e → ∃ which, e = .defect which id) →
      s.countedOperands id w f g = .error e → (∃ which, e = .defect which id)
        ∨ s.resolve id 0 f.slot0.desc = .error e ∨ s.resolve id 1 f.slot1.desc = .error e := by
    intro g hg h
    unfold State.countedOperands at h
    rcases bind_error h with h | ⟨_, -, h⟩
    · exact .inl ⟨_, (check_error h).2⟩
    rcases bind_error h with h | ⟨_, -, h⟩
    · exact .inl ⟨_, (check_error h).2⟩
    rcases bind_error h with h | ⟨_, -, h⟩
    · exact .inl ⟨_, (check_error h).2⟩
    rcases bind_error h with h | ⟨_, -, h⟩
    · exact .inr (.inl h)
    rcases bind_error h with h | ⟨_, -, h⟩
    · exact .inr (.inr h)
    rcases bind_error h with h | ⟨_, -, h⟩
    · exact .inl ⟨_, (check_error h).2⟩
    rcases bind_error h with h | ⟨_, -, h⟩
    · exact .inl (hg _ _ h)
    cases h
  cases shape with
  | rm1 =>
    unfold State.shiftOperands State.oneOperand at h
    rcases bind_error h with h | ⟨_, -, h⟩
    · exact .inl ⟨_, (check_error h).2⟩
    rcases bind_error h with h | ⟨_, -, h⟩
    · exact .inl ⟨_, (check_error h).2⟩
    rcases bind_error h with h | ⟨_, -, h⟩
    · exact .inr (.inl h)
    rcases bind_error h with h | ⟨_, -, h⟩
    · exact .inl ⟨_, (check_error h).2⟩
    cases h
  | rmCl =>
    refine counted _ ?_ h
    intro o e h
    unfold State.clCount at h
    split at h <;> cases h
    exact ⟨_, rfl⟩
  | rmImm8 =>
    refine counted _ ?_ h
    intro o e h
    unfold immCount at h
    split at h
    · split at h <;> cases h
      exact ⟨_, rfl⟩
    · cases h; exact ⟨_, rfl⟩
    · cases h; exact ⟨_, rfl⟩

end Sys2Proof.Machine
end

