-- ==== Sys2Proof/Laws/Flags.lean ====
section
/-! SUPPORT. The bits of flag masks and of merged flags, and what every engine operation keeps to: `set` inside `def`,
`def` inside the six flags, a result of W bits. -/

namespace Sys2Proof.Machine

/-! ## Masks -/

@[simp] theorem getLsbD_onlyIf (f g : Flag) (c : Bool) : (f.onlyIf c).getLsbD g.bit = (c && decide (f = g)) := by
  cases c <;> cases f <;> cases g <;> decide

@[simp] theorem getLsbD_mask (f g : Flag) : f.mask.getLsbD g.bit = decide (f = g) := by
  cases f <;> cases g <;> decide

@[simp] theorem getLsbD_all6 (g : Flag) : all6.getLsbD g.bit = true := by cases g <;> decide

@[simp] theorem getLsbD_logicDef (g : Flag) : logicDef.getLsbD g.bit = decide (g ≠ .af) := by cases g <;> decide

@[simp] theorem getLsbD_szpDef (g : Flag) :
    szpDef.getLsbD g.bit = decide (g = .pf ∨ g = .zf ∨ g = .sf) := by cases g <;> decide

/-- A mask has no bit but the flag's. -/
theorem getLsbD_mask_other {f : Flag} {k : Nat} (h : k ∉ [0, 2, 4, 6, 7, 11]) : f.mask.getLsbD k = false := by
  have hk : k ≠ f.bit := by rintro rfl; cases f <;> simp [Flag.bit] at h
  simp only [Flag.mask, BitVec.getLsbD_shiftLeft, BitVec.getLsbD_one]
  by_cases h1 : k < f.bit
  · simp [h1]
  · simp [show k - f.bit ≠ 0 by omega]

theorem getLsbD_onlyIf_other {f : Flag} {c : Bool} {k : Nat} (h : k ∉ [0, 2, 4, 6, 7, 11]) :
    (f.onlyIf c).getLsbD k = false := by
  cases c
  · simp [Flag.onlyIf]
  · simpa [Flag.onlyIf] using getLsbD_mask_other h

theorem all6_eq : all6 = Flag.cf.mask ||| Flag.pf.mask ||| Flag.af.mask ||| Flag.zf.mask ||| Flag.sf.mask
    ||| Flag.of.mask := by decide

/-- Merging: a flag in `def` takes its value from `set`, provided `set` lies inside `def` (R121). -/
theorem getLsbD_mergeFlags (fl d m : Word) (k : Nat) :
    (mergeFlags fl d m).getLsbD k = (fl.getLsbD k && !d.getLsbD k || m.getLsbD k) := by
  by_cases h : k < 64
  · simp [mergeFlags, h]
  · simp [mergeFlags, BitVec.getLsbD_of_ge _ k (Nat.not_lt.mp h)]

/-- Merging nothing leaves FLAGS as it was. -/
@[simp] theorem mergeFlags_zero (fl : Word) : mergeFlags fl 0#64 0#64 = fl := by
  apply BitVec.eq_of_getLsbD_eq
  intro k _
  simp [getLsbD_mergeFlags]

theorem flag_mergeFlags (s : State) (d m : Word) (g : Flag) :
    (s.mergeFlags d m).flag g = (s.flag g && !d.getLsbD g.bit || m.getLsbD g.bit) :=
  getLsbD_mergeFlags _ _ _ _

@[simp] theorem getLsbD_szp (r n : Nat) (g : Flag) :
    (szp r n).getLsbD g.bit =
      (signFlag r n && decide (g = .sf) || zeroFlag r && decide (g = .zf) || parityFlag r && decide (g = .pf)) := by
  simp only [szp, BitVec.getLsbD_or, getLsbD_onlyIf]
  cases g <;> simp

/-! ## What every operation keeps to -/

/-- A mask with bits at the six flags only. -/
def SixOnly (m : Word) : Prop := ∀ k, k ∉ [0, 2, 4, 6, 7, 11] → m.getLsbD k = false

theorem SixOnly.or {m n : Word} (hm : SixOnly m) (hn : SixOnly n) : SixOnly (m ||| n) := fun k hk => by
  rw [BitVec.getLsbD_or, hm k hk, hn k hk]; rfl
theorem sixOnly_mask (f : Flag) : SixOnly f.mask := fun _ => getLsbD_mask_other
theorem sixOnly_onlyIf (f : Flag) (c : Bool) : SixOnly (f.onlyIf c) := fun _ => getLsbD_onlyIf_other
theorem sixOnly_zero : SixOnly 0 := fun k _ => by simp
theorem sixOnly_szp (r n : Nat) : SixOnly (szp r n) :=
  ((sixOnly_onlyIf _ _).or (sixOnly_onlyIf _ _)).or (sixOnly_onlyIf _ _)
theorem sixOnly_all6 : SixOnly all6 := by
  rw [all6_eq]
  exact (((((sixOnly_mask _).or (sixOnly_mask _)).or (sixOnly_mask _)).or (sixOnly_mask _)).or (sixOnly_mask _)).or
    (sixOnly_mask _)
theorem sixOnly_logicDef : SixOnly logicDef :=
  ((((sixOnly_mask _).or (sixOnly_mask _)).or (sixOnly_mask _)).or (sixOnly_mask _)).or (sixOnly_mask _)
theorem sixOnly_szpDef : SixOnly szpDef := ((sixOnly_mask _).or (sixOnly_mask _)).or (sixOnly_mask _)

/-- `def` and `set` lie inside the six flags. -/
theorem afe_sixOnly (op : EngineOp) (w : Width) (d s : Word) :
    SixOnly (afe op w d s).defMask ∧ SixOnly (afe op w d s).setMask := by
  have hc : ∀ (g : Nat → Nat → Nat → EngineOut) (n a c : Nat),
      (∀ c, SixOnly (g n a c).defMask ∧ SixOnly (g n a c).setMask) →
      SixOnly (afeCounted g n a c).defMask ∧ SixOnly (afeCounted g n a c).setMask := by
    intro g n a c h
    unfold afeCounted
    split
    · exact ⟨sixOnly_zero, sixOnly_zero⟩
    · exact h _
  have hl : ∀ n r, SixOnly (afeLogic n r).defMask ∧ SixOnly (afeLogic n r).setMask := fun n r =>
    ⟨sixOnly_logicDef, sixOnly_szp _ _⟩
  have h3 : ∀ (m : Word) (x y z : Bool), SixOnly m →
      SixOnly (m ||| Flag.cf.onlyIf x ||| Flag.of.onlyIf y ||| Flag.af.onlyIf z) := fun m x y z hm =>
    ((hm.or (sixOnly_onlyIf _ _)).or (sixOnly_onlyIf _ _)).or (sixOnly_onlyIf _ _)
  have h2 : ∀ (m : Word) (x y : Bool), SixOnly m → SixOnly (m ||| Flag.cf.onlyIf x ||| Flag.of.onlyIf y) :=
    fun m x y hm => (hm.or (sixOnly_onlyIf _ _)).or (sixOnly_onlyIf _ _)
  have h1 : ∀ x, SixOnly (Flag.cf.mask ||| Flag.of.onlyIf x) := fun x =>
    (sixOnly_mask _).or (sixOnly_onlyIf _ _)
  have h0 : ∀ x y, SixOnly (Flag.cf.onlyIf x ||| Flag.of.onlyIf y) := fun x y =>
    (sixOnly_onlyIf _ _).or (sixOnly_onlyIf _ _)
  cases op with
  | add => exact ⟨sixOnly_all6, h3 _ _ _ _ (sixOnly_szp _ _)⟩
  | or => exact hl _ _
  | and => exact hl _ _
  | sub => exact ⟨sixOnly_all6, h3 _ _ _ _ (sixOnly_szp _ _)⟩
  | xor => exact hl _ _
  | cmp => exact ⟨sixOnly_all6, h3 _ _ _ _ (sixOnly_szp _ _)⟩
  | rol => exact hc _ _ _ _ fun c => ⟨h1 _, h0 _ _⟩
  | ror => exact hc _ _ _ _ fun c => ⟨h1 _, h0 _ _⟩
  | shl => exact hc _ _ _ _ fun c => ⟨h2 _ _ _ sixOnly_szpDef, h2 _ _ _ (sixOnly_szp _ _)⟩
  | shr => exact hc _ _ _ _ fun c => ⟨h2 _ _ _ sixOnly_szpDef, h2 _ _ _ (sixOnly_szp _ _)⟩
  | sar =>
    exact hc _ _ _ _ fun c => ⟨((sixOnly_szpDef.or (sixOnly_mask _)).or (sixOnly_onlyIf _ _)),
      (sixOnly_szp _ _).or (sixOnly_onlyIf _ _)⟩

/-- A merge of masks inside the six flags keeps the other bits. -/
theorem otherFlagBitsKept_merge {s u : State} {d m : Word} (hu : u.flags = s.flags) (hd : SixOnly d)
    (hm : SixOnly m) : OtherFlagBitsKept s (u.mergeFlags d m) := fun k hk => by
  rw [State.mergeFlags_flags, getLsbD_mergeFlags, hd k hk, hm k hk, hu]
  simp

/-- Only CMP does not write its result back (R110, R132). -/
theorem afe_wb (op : EngineOp) (w : Width) (d s : Word) : (afe op w d s).wb = decide (op ≠ .cmp) := by
  have hc : ∀ (g : Nat → Nat → Nat → EngineOut) (n a c : Nat), (∀ c, (g n a c).wb = true) →
      (afeCounted g n a c).wb = true := by
    intro g n a c h
    unfold afeCounted
    split
    · rfl
    · exact h _
  cases op with
  | rol => exact hc _ _ _ _ fun _ => rfl
  | ror => exact hc _ _ _ _ fun _ => rfl
  | shl => exact hc _ _ _ _ fun _ => rfl
  | shr => exact hc _ _ _ _ fun _ => rfl
  | sar => exact hc _ _ _ _ fun _ => rfl
  | _ => rfl

theorem trunc_lt (n : Nat) (v : Int) : trunc n v < 2 ^ n := by
  have hp : (0 : Int) < ((2 ^ n : Nat) : Int) := by exact_mod_cast Nat.two_pow_pos n
  have h1 := Int.emod_lt_of_pos v hp
  have h0 := Int.emod_nonneg v (Int.ne_of_gt hp)
  unfold trunc
  omega

theorem trunc_natCast (n v : Nat) : trunc n (v : Int) = v % 2 ^ n := by
  unfold trunc
  omega

/-- The masked count (R150). -/
theorem maskedCount_eq (w : Width) (c : Nat) : maskedCount w.bits c = c % (if w = .w64 then 64 else 32) := by
  cases w <;> simp [maskedCount, Width.bits] <;> first
    | exact Nat.and_two_pow_sub_one_eq_mod c 5
    | exact Nat.and_two_pow_sub_one_eq_mod c 6

end Sys2Proof.Machine
end

