-- ==== Sys2Proof/Laws/Host.lean ====
section
/-! SUPPORT. The host calls: what an Aborted instance replies, when a call answers, and that a call which leaves FLAGS
alone keeps them. -/

namespace Sys2Proof.Machine

variable {α : Type} {s t : State} {reply : HostReply α} {v : α}

/-- No call has a meaning on an Aborted instance. -/
theorem hostCall_aborted (h : s.status = .aborted) : hostCall s reply = .stuck .aborted := by simp [hostCall, h]

/-- A call on a Running instance is its reply. -/
theorem hostCall_running (h : s.status = .running) : hostCall s reply = reply := by simp [hostCall, h]

/-- A call that answers was made on a Running instance. -/
theorem hostCall_ok (h : hostCall s reply = .ok v t) : s.status = .running ∧ reply = .ok v t := by
  cases hs : s.status with
  | running => exact ⟨rfl, by rwa [hostCall_running hs] at h⟩
  | aborted => rw [hostCall_aborted hs] at h; cases h

@[simp] theorem withFlags_ok (g : Word) : (HostReply.ok v s).withFlags g = .ok v { s with flags := g } := rfl
@[simp] theorem withFlags_error (g : Word) (e : Error) :
    (HostReply.error e : HostReply α).withFlags g = .error e := rfl
@[simp] theorem withFlags_stuck (g : Word) (f : Fault) :
    (HostReply.stuck f : HostReply α).withFlags g = .stuck f := rfl
@[simp] theorem withFlags_refused (g : Word) (r : Refusal) :
    (HostReply.refused r : HostReply α).withFlags g = .refused r := rfl

/-- A call leaves FLAGS alone when its reply on a Running instance does. -/
theorem hostCall_flagsUntouched {r : State → HostReply α}
    (h : ∀ (s : State) (g : Word), r { s with flags := g } = (r s).withFlags g) :
    FlagsUntouched fun s => hostCall s (r s) := by
  intro s g
  simp only [hostCall]
  split
  · rfl
  · exact h s g

/-- A call that leaves FLAGS alone keeps them in the state after it. -/
theorem FlagsUntouched.flags_eq {call : State → HostReply α} (h : FlagsUntouched call) (hc : call s = .ok v t) :
    t.flags = s.flags := by
  have e := h s s.flags
  rw [hc, withFlags_ok] at e
  injection e with _ e
  rw [e]

end Sys2Proof.Machine
end

