-- ==== Sys2Proof/Laws/Next.lean ====
section
/-! SUPPORT. The next state of an instruction whose operands are read, in one equation: the operand written with the
engine's result, FLAGS merged with its masks; and which operations, variants and ids the rows of each template have. -/

namespace Sys2Proof.Machine

variable {i : Instr} {op : EngineOp} {w : Width} {f : Fields} {s : State}

/-- A two-operand instruction that is not CMP writes the engine's result back; CMP changes FLAGS only (R122, R132). -/
theorem alu2_next {shape : AluShape} {dst src : Operand} {a b : Word} (hi : i.form = .alu2 op shape w f)
    (h : AluOperands op shape w f s dst src a b) :
    ∃ t, exec i s = .next t ∧ t.raised = none
      ∧ t.flags = mergeFlags s.flags (afe op w a b).defMask (afe op w a b).setMask
      ∧ (op ≠ .cmp → s.opWrite (aluId op shape w) dst w (afe op w a b).result
          = .ok { t with flags := s.flags, raised := s.raised })
      ∧ (op = .cmp → t = { s with flags := t.flags, raised := none }) := by
  obtain ⟨hs, hwf, hd, -, ha, -⟩ := id h
  obtain ⟨dst', src', hd', -, hfit⟩ := resolve_wellFormed (s := s) hwf (aluId op shape w)
  rw [hd] at hd'
  cases hd'
  rw [exec_of_form hi, formOutcome, exec2_eq_commit h]
  by_cases hc : op = .cmp
  · subst hc
    rw [commit_noWb (by rw [afe_wb]; rfl), deliver_ok hs]
    exact ⟨_, rfl, rfl, rfl, fun h => absurd rfl h, fun _ => rfl⟩
  · obtain ⟨u, hu⟩ := opWrite_of_opRead (afe op w a b).result ha (by
      rintro u nb rfl
      cases shape <;> simp [fits2, Operand.isRegOrMem, Operand.isReg, Operand.isFixedReg] at hfit)
    rw [commit_wb (by rw [afe_wb]; simp [hc]) hu, deliver_ok hs, hu]
    refine ⟨_, rfl, rfl, ?_, fun _ => ?_, fun h => absurd h hc⟩ <;>
      rcases opWrite_ok hu with ⟨i, -, rfl⟩ | ⟨ea, -, -, rfl⟩ <;> rfl

/-- A shift or rotate writes the engine's result back (R123). -/
theorem shift_next {shape : ShiftShape} {dst : Operand} {a craw : Word} (hi : i.form = .shift op shape w f)
    (h : ShiftOperands op shape w f s dst a craw) (hop : op ≠ .cmp) :
    ∃ t, exec i s = .next t ∧ t.raised = none
      ∧ t.flags = mergeFlags s.flags (afe op w a craw).defMask (afe op w a craw).setMask
      ∧ s.opWrite (shiftId op shape w) dst w (afe op w a craw).result
          = .ok { t with flags := s.flags, raised := s.raised } := by
  obtain ⟨hs, -, hd, ha⟩ := id h
  rw [exec_of_form hi, formOutcome, execShift_eq_commit h]
  obtain ⟨-, hfit⟩ := shiftOperands_ok hd
  obtain ⟨u, hu⟩ := opWrite_of_opRead (afe op w a craw).result ha (by rintro u nb rfl; cases hfit)
  rw [commit_wb (by rw [afe_wb]; simpa using hop) hu, deliver_ok hs, hu]
  refine ⟨_, rfl, rfl, ?_, ?_⟩ <;> rcases opWrite_ok hu with ⟨i, -, rfl⟩ | ⟨ea, -, -, rfl⟩ <;> rfl

/-- The flags after a merge of the engine's masks, flag by flag. -/
theorem flag_of_flags {t : State} {d m : Word} (h : t.flags = mergeFlags s.flags d m) (g : Flag) :
    t.flag g = (s.flag g && !d.getLsbD g.bit || m.getLsbD g.bit) := by
  rw [State.flag, h, getLsbD_mergeFlags]
  rfl

/-- The engine's masks keep the bits of FLAGS that are no flag. -/
theorem otherFlagBitsKept_of_flags {t : State} {a b : Word}
    (h : t.flags = mergeFlags s.flags (afe op w a b).defMask (afe op w a b).setMask) : OtherFlagBitsKept s t := by
  intro k hk
  obtain ⟨hd, hm⟩ := afe_sixOnly op w a b
  rw [h, getLsbD_mergeFlags, hd k hk, hm k hk]
  simp

/-! ## Which rows there are (R90 to R93) -/

theorem op_of_alu2 {shape : AluShape} (h : i.form = .alu2 op shape w f) :
    op = .add ∨ op = .or ∨ op = .and ∨ op = .sub ∨ op = .xor ∨ op = .cmp := by
  revert h
  cases i <;> simp only [Instr.form] <;> intro h <;> cases h <;> simp

theorem op_of_shift {shape : ShiftShape} (h : i.form = .shift op shape w f) :
    op = .rol ∨ op = .ror ∨ op = .shl ∨ op = .shr ∨ op = .sar := by
  revert h
  cases i <;> simp only [Instr.form] <;> intro h <;> cases h <;> simp

theorem variant_of_defect32 {st : StackOp} {v : BitVec 8} (h : i.form = .defect32 st v) :
    v = 0x02 ∨ v = 0x06 ∨ v = 0x0A := by
  revert h
  cases i <;> simp only [Instr.form] <;> intro h <;> cases h <;> simp

theorem mnemonic_of_reserved {m v : BitVec 8} (h : i.form = .reserved m v) :
    m = 0x02 ∨ m = 0x03 ∨ m = 0x12 ∨ m = 0x13 ∨ m = 0x16 := by
  revert h
  cases i <;> simp only [Instr.form] <;> intro h <;> cases h <;> simp

end Sys2Proof.Machine
end

