-- ==== Sys2Proof/Laws/PerInstr.lean ====
section
/-! SUPPORT. Family OpcodeRoundTrip: the decoder's tables read back each instruction from its own ids and fields. One lemma
per constructor of `Instr`. -/

namespace Sys2Proof.Laws.OpcodeRoundTrip

/-- The two-level selection of 30_encoding.md rule R95 on an instruction's ids and fields gives the instruction. -/
def Statement (i : Instr) : Prop := decodeOpcode i.form.id i.form.fields = .ok i

theorem addRm8R8 (f : Fields) : Statement (.addRm8R8 f) := rfl
theorem addRm16R16 (f : Fields) : Statement (.addRm16R16 f) := rfl
theorem addRm32R32 (f : Fields) : Statement (.addRm32R32 f) := rfl
theorem addRm64R64 (f : Fields) : Statement (.addRm64R64 f) := rfl
theorem addR8Rm8 (f : Fields) : Statement (.addR8Rm8 f) := rfl
theorem addR16Rm16 (f : Fields) : Statement (.addR16Rm16 f) := rfl
theorem addR32Rm32 (f : Fields) : Statement (.addR32Rm32 f) := rfl
theorem addR64Rm64 (f : Fields) : Statement (.addR64Rm64 f) := rfl
theorem addAlImm8 (f : Fields) : Statement (.addAlImm8 f) := rfl
theorem addAxImm16 (f : Fields) : Statement (.addAxImm16 f) := rfl
theorem addEaxImm32 (f : Fields) : Statement (.addEaxImm32 f) := rfl
theorem addRaxImm32 (f : Fields) : Statement (.addRaxImm32 f) := rfl
theorem addRm8Imm8 (f : Fields) : Statement (.addRm8Imm8 f) := rfl
theorem addRm16Imm16 (f : Fields) : Statement (.addRm16Imm16 f) := rfl
theorem addRm32Imm32 (f : Fields) : Statement (.addRm32Imm32 f) := rfl
theorem addRm64Imm32 (f : Fields) : Statement (.addRm64Imm32 f) := rfl
theorem addRm16Imm8 (f : Fields) : Statement (.addRm16Imm8 f) := rfl
theorem addRm32Imm8 (f : Fields) : Statement (.addRm32Imm8 f) := rfl
theorem addRm64Imm8 (f : Fields) : Statement (.addRm64Imm8 f) := rfl
theorem orRm8R8 (f : Fields) : Statement (.orRm8R8 f) := rfl
theorem orRm16R16 (f : Fields) : Statement (.orRm16R16 f) := rfl
theorem orRm32R32 (f : Fields) : Statement (.orRm32R32 f) := rfl
theorem orRm64R64 (f : Fields) : Statement (.orRm64R64 f) := rfl
theorem orR8Rm8 (f : Fields) : Statement (.orR8Rm8 f) := rfl
theorem orR16Rm16 (f : Fields) : Statement (.orR16Rm16 f) := rfl
theorem orR32Rm32 (f : Fields) : Statement (.orR32Rm32 f) := rfl
theorem orR64Rm64 (f : Fields) : Statement (.orR64Rm64 f) := rfl
theorem orAlImm8 (f : Fields) : Statement (.orAlImm8 f) := rfl
theorem orAxImm16 (f : Fields) : Statement (.orAxImm16 f) := rfl
theorem orEaxImm32 (f : Fields) : Statement (.orEaxImm32 f) := rfl
theorem orRaxImm32 (f : Fields) : Statement (.orRaxImm32 f) := rfl
theorem orRm8Imm8 (f : Fields) : Statement (.orRm8Imm8 f) := rfl
theorem orRm16Imm16 (f : Fields) : Statement (.orRm16Imm16 f) := rfl
theorem orRm32Imm32 (f : Fields) : Statement (.orRm32Imm32 f) := rfl
theorem orRm64Imm32 (f : Fields) : Statement (.orRm64Imm32 f) := rfl
theorem orRm16Imm8 (f : Fields) : Statement (.orRm16Imm8 f) := rfl
theorem orRm32Imm8 (f : Fields) : Statement (.orRm32Imm8 f) := rfl
theorem orRm64Imm8 (f : Fields) : Statement (.orRm64Imm8 f) := rfl
theorem andRm8R8 (f : Fields) : Statement (.andRm8R8 f) := rfl
theorem andRm16R16 (f : Fields) : Statement (.andRm16R16 f) := rfl
theorem andRm32R32 (f : Fields) : Statement (.andRm32R32 f) := rfl
theorem andRm64R64 (f : Fields) : Statement (.andRm64R64 f) := rfl
theorem andR8Rm8 (f : Fields) : Statement (.andR8Rm8 f) := rfl
theorem andR16Rm16 (f : Fields) : Statement (.andR16Rm16 f) := rfl
theorem andR32Rm32 (f : Fields) : Statement (.andR32Rm32 f) := rfl
theorem andR64Rm64 (f : Fields) : Statement (.andR64Rm64 f) := rfl
theorem andAlImm8 (f : Fields) : Statement (.andAlImm8 f) := rfl
theorem andAxImm16 (f : Fields) : Statement (.andAxImm16 f) := rfl
theorem andEaxImm32 (f : Fields) : Statement (.andEaxImm32 f) := rfl
theorem andRaxImm32 (f : Fields) : Statement (.andRaxImm32 f) := rfl
theorem andRm8Imm8 (f : Fields) : Statement (.andRm8Imm8 f) := rfl
theorem andRm16Imm16 (f : Fields) : Statement (.andRm16Imm16 f) := rfl
theorem andRm32Imm32 (f : Fields) : Statement (.andRm32Imm32 f) := rfl
theorem andRm64Imm32 (f : Fields) : Statement (.andRm64Imm32 f) := rfl
theorem andRm16Imm8 (f : Fields) : Statement (.andRm16Imm8 f) := rfl
theorem andRm32Imm8 (f : Fields) : Statement (.andRm32Imm8 f) := rfl
theorem andRm64Imm8 (f : Fields) : Statement (.andRm64Imm8 f) := rfl
theorem subRm8R8 (f : Fields) : Statement (.subRm8R8 f) := rfl
theorem subRm16R16 (f : Fields) : Statement (.subRm16R16 f) := rfl
theorem subRm32R32 (f : Fields) : Statement (.subRm32R32 f) := rfl
theorem subRm64R64 (f : Fields) : Statement (.subRm64R64 f) := rfl
theorem subR8Rm8 (f : Fields) : Statement (.subR8Rm8 f) := rfl
theorem subR16Rm16 (f : Fields) : Statement (.subR16Rm16 f) := rfl
theorem subR32Rm32 (f : Fields) : Statement (.subR32Rm32 f) := rfl
theorem subR64Rm64 (f : Fields) : Statement (.subR64Rm64 f) := rfl
theorem subAlImm8 (f : Fields) : Statement (.subAlImm8 f) := rfl
theorem subAxImm16 (f : Fields) : Statement (.subAxImm16 f) := rfl
theorem subEaxImm32 (f : Fields) : Statement (.subEaxImm32 f) := rfl
theorem subRaxImm32 (f : Fields) : Statement (.subRaxImm32 f) := rfl
theorem subRm8Imm8 (f : Fields) : Statement (.subRm8Imm8 f) := rfl
theorem subRm16Imm16 (f : Fields) : Statement (.subRm16Imm16 f) := rfl
theorem subRm32Imm32 (f : Fields) : Statement (.subRm32Imm32 f) := rfl
theorem subRm64Imm32 (f : Fields) : Statement (.subRm64Imm32 f) := rfl
theorem subRm16Imm8 (f : Fields) : Statement (.subRm16Imm8 f) := rfl
theorem subRm32Imm8 (f : Fields) : Statement (.subRm32Imm8 f) := rfl
theorem subRm64Imm8 (f : Fields) : Statement (.subRm64Imm8 f) := rfl
theorem xorRm8R8 (f : Fields) : Statement (.xorRm8R8 f) := rfl
theorem xorRm16R16 (f : Fields) : Statement (.xorRm16R16 f) := rfl
theorem xorRm32R32 (f : Fields) : Statement (.xorRm32R32 f) := rfl
theorem xorRm64R64 (f : Fields) : Statement (.xorRm64R64 f) := rfl
theorem xorR8Rm8 (f : Fields) : Statement (.xorR8Rm8 f) := rfl
theorem xorR16Rm16 (f : Fields) : Statement (.xorR16Rm16 f) := rfl
theorem xorR32Rm32 (f : Fields) : Statement (.xorR32Rm32 f) := rfl
theorem xorR64Rm64 (f : Fields) : Statement (.xorR64Rm64 f) := rfl
theorem xorAlImm8 (f : Fields) : Statement (.xorAlImm8 f) := rfl
theorem xorAxImm16 (f : Fields) : Statement (.xorAxImm16 f) := rfl
theorem xorEaxImm32 (f : Fields) : Statement (.xorEaxImm32 f) := rfl
theorem xorRaxImm32 (f : Fields) : Statement (.xorRaxImm32 f) := rfl
theorem xorRm8Imm8 (f : Fields) : Statement (.xorRm8Imm8 f) := rfl
theorem xorRm16Imm16 (f : Fields) : Statement (.xorRm16Imm16 f) := rfl
theorem xorRm32Imm32 (f : Fields) : Statement (.xorRm32Imm32 f) := rfl
theorem xorRm64Imm32 (f : Fields) : Statement (.xorRm64Imm32 f) := rfl
theorem xorRm16Imm8 (f : Fields) : Statement (.xorRm16Imm8 f) := rfl
theorem xorRm32Imm8 (f : Fields) : Statement (.xorRm32Imm8 f) := rfl
theorem xorRm64Imm8 (f : Fields) : Statement (.xorRm64Imm8 f) := rfl
theorem cmpRm8R8 (f : Fields) : Statement (.cmpRm8R8 f) := rfl
theorem cmpRm16R16 (f : Fields) : Statement (.cmpRm16R16 f) := rfl
theorem cmpRm32R32 (f : Fields) : Statement (.cmpRm32R32 f) := rfl
theorem cmpRm64R64 (f : Fields) : Statement (.cmpRm64R64 f) := rfl
theorem cmpR8Rm8 (f : Fields) : Statement (.cmpR8Rm8 f) := rfl
theorem cmpR16Rm16 (f : Fields) : Statement (.cmpR16Rm16 f) := rfl
theorem cmpR32Rm32 (f : Fields) : Statement (.cmpR32Rm32 f) := rfl
theorem cmpR64Rm64 (f : Fields) : Statement (.cmpR64Rm64 f) := rfl
theorem cmpAlImm8 (f : Fields) : Statement (.cmpAlImm8 f) := rfl
theorem cmpAxImm16 (f : Fields) : Statement (.cmpAxImm16 f) := rfl
theorem cmpEaxImm32 (f : Fields) : Statement (.cmpEaxImm32 f) := rfl
theorem cmpRaxImm32 (f : Fields) : Statement (.cmpRaxImm32 f) := rfl
theorem cmpRm8Imm8 (f : Fields) : Statement (.cmpRm8Imm8 f) := rfl
theorem cmpRm16Imm16 (f : Fields) : Statement (.cmpRm16Imm16 f) := rfl
theorem cmpRm32Imm32 (f : Fields) : Statement (.cmpRm32Imm32 f) := rfl
theorem cmpRm64Imm32 (f : Fields) : Statement (.cmpRm64Imm32 f) := rfl
theorem cmpRm16Imm8 (f : Fields) : Statement (.cmpRm16Imm8 f) := rfl
theorem cmpRm32Imm8 (f : Fields) : Statement (.cmpRm32Imm8 f) := rfl
theorem cmpRm64Imm8 (f : Fields) : Statement (.cmpRm64Imm8 f) := rfl
theorem rolRm8By1 (f : Fields) : Statement (.rolRm8By1 f) := rfl
theorem rolRm16By1 (f : Fields) : Statement (.rolRm16By1 f) := rfl
theorem rolRm32By1 (f : Fields) : Statement (.rolRm32By1 f) := rfl
theorem rolRm64By1 (f : Fields) : Statement (.rolRm64By1 f) := rfl
theorem rolRm8Cl (f : Fields) : Statement (.rolRm8Cl f) := rfl
theorem rolRm16Cl (f : Fields) : Statement (.rolRm16Cl f) := rfl
theorem rolRm32Cl (f : Fields) : Statement (.rolRm32Cl f) := rfl
theorem rolRm64Cl (f : Fields) : Statement (.rolRm64Cl f) := rfl
theorem rolRm8Imm8 (f : Fields) : Statement (.rolRm8Imm8 f) := rfl
theorem rolRm16Imm8 (f : Fields) : Statement (.rolRm16Imm8 f) := rfl
theorem rolRm32Imm8 (f : Fields) : Statement (.rolRm32Imm8 f) := rfl
theorem rolRm64Imm8 (f : Fields) : Statement (.rolRm64Imm8 f) := rfl
theorem rorRm8By1 (f : Fields) : Statement (.rorRm8By1 f) := rfl
theorem rorRm16By1 (f : Fields) : Statement (.rorRm16By1 f) := rfl
theorem rorRm32By1 (f : Fields) : Statement (.rorRm32By1 f) := rfl
theorem rorRm64By1 (f : Fields) : Statement (.rorRm64By1 f) := rfl
theorem rorRm8Cl (f : Fields) : Statement (.rorRm8Cl f) := rfl
theorem rorRm16Cl (f : Fields) : Statement (.rorRm16Cl f) := rfl
theorem rorRm32Cl (f : Fields) : Statement (.rorRm32Cl f) := rfl
theorem rorRm64Cl (f : Fields) : Statement (.rorRm64Cl f) := rfl
theorem rorRm8Imm8 (f : Fields) : Statement (.rorRm8Imm8 f) := rfl
theorem rorRm16Imm8 (f : Fields) : Statement (.rorRm16Imm8 f) := rfl
theorem rorRm32Imm8 (f : Fields) : Statement (.rorRm32Imm8 f) := rfl
theorem rorRm64Imm8 (f : Fields) : Statement (.rorRm64Imm8 f) := rfl
theorem shlRm8By1 (f : Fields) : Statement (.shlRm8By1 f) := rfl
theorem shlRm16By1 (f : Fields) : Statement (.shlRm16By1 f) := rfl
theorem shlRm32By1 (f : Fields) : Statement (.shlRm32By1 f) := rfl
theorem shlRm64By1 (f : Fields) : Statement (.shlRm64By1 f) := rfl
theorem shlRm8Cl (f : Fields) : Statement (.shlRm8Cl f) := rfl
theorem shlRm16Cl (f : Fields) : Statement (.shlRm16Cl f) := rfl
theorem shlRm32Cl (f : Fields) : Statement (.shlRm32Cl f) := rfl
theorem shlRm64Cl (f : Fields) : Statement (.shlRm64Cl f) := rfl
theorem shlRm8Imm8 (f : Fields) : Statement (.shlRm8Imm8 f) := rfl
theorem shlRm16Imm8 (f : Fields) : Statement (.shlRm16Imm8 f) := rfl
theorem shlRm32Imm8 (f : Fields) : Statement (.shlRm32Imm8 f) := rfl
theorem shlRm64Imm8 (f : Fields) : Statement (.shlRm64Imm8 f) := rfl
theorem shrRm8By1 (f : Fields) : Statement (.shrRm8By1 f) := rfl
theorem shrRm16By1 (f : Fields) : Statement (.shrRm16By1 f) := rfl
theorem shrRm32By1 (f : Fields) : Statement (.shrRm32By1 f) := rfl
theorem shrRm64By1 (f : Fields) : Statement (.shrRm64By1 f) := rfl
theorem shrRm8Cl (f : Fields) : Statement (.shrRm8Cl f) := rfl
theorem shrRm16Cl (f : Fields) : Statement (.shrRm16Cl f) := rfl
theorem shrRm32Cl (f : Fields) : Statement (.shrRm32Cl f) := rfl
theorem shrRm64Cl (f : Fields) : Statement (.shrRm64Cl f) := rfl
theorem shrRm8Imm8 (f : Fields) : Statement (.shrRm8Imm8 f) := rfl
theorem shrRm16Imm8 (f : Fields) : Statement (.shrRm16Imm8 f) := rfl
theorem shrRm32Imm8 (f : Fields) : Statement (.shrRm32Imm8 f) := rfl
theorem shrRm64Imm8 (f : Fields) : Statement (.shrRm64Imm8 f) := rfl
theorem sarRm8By1 (f : Fields) : Statement (.sarRm8By1 f) := rfl
theorem sarRm16By1 (f : Fields) : Statement (.sarRm16By1 f) := rfl
theorem sarRm32By1 (f : Fields) : Statement (.sarRm32By1 f) := rfl
theorem sarRm64By1 (f : Fields) : Statement (.sarRm64By1 f) := rfl
theorem sarRm8Cl (f : Fields) : Statement (.sarRm8Cl f) := rfl
theorem sarRm16Cl (f : Fields) : Statement (.sarRm16Cl f) := rfl
theorem sarRm32Cl (f : Fields) : Statement (.sarRm32Cl f) := rfl
theorem sarRm64Cl (f : Fields) : Statement (.sarRm64Cl f) := rfl
theorem sarRm8Imm8 (f : Fields) : Statement (.sarRm8Imm8 f) := rfl
theorem sarRm16Imm8 (f : Fields) : Statement (.sarRm16Imm8 f) := rfl
theorem sarRm32Imm8 (f : Fields) : Statement (.sarRm32Imm8 f) := rfl
theorem sarRm64Imm8 (f : Fields) : Statement (.sarRm64Imm8 f) := rfl
theorem pushR16 (f : Fields) : Statement (.pushR16 f) := rfl
theorem pushR64 (f : Fields) : Statement (.pushR64 f) := rfl
theorem pushR32 : Statement (.pushR32) := rfl
theorem pushRm32 : Statement (.pushRm32) := rfl
theorem pushImmOpsize32 : Statement (.pushImmOpsize32) := rfl
theorem pushRm16 : Statement (.pushRm16) := rfl
theorem pushRm64 : Statement (.pushRm64) := rfl
theorem pushImmOpsize16 : Statement (.pushImmOpsize16) := rfl
theorem pushImmOpsize64 : Statement (.pushImmOpsize64) := rfl
theorem popR16 (f : Fields) : Statement (.popR16 f) := rfl
theorem popR64 (f : Fields) : Statement (.popR64 f) := rfl
theorem popR32 : Statement (.popR32) := rfl
theorem popRm32 : Statement (.popRm32) := rfl
theorem popImmOpsize32 : Statement (.popImmOpsize32) := rfl
theorem popRm16 : Statement (.popRm16) := rfl
theorem popRm64 : Statement (.popRm64) := rfl
theorem adc (v : BitVec 8) : Statement (.adc v) := rfl
theorem sbb (v : BitVec 8) : Statement (.sbb v) := rfl
theorem rcl (v : BitVec 8) : Statement (.rcl v) := rfl
theorem rcr (v : BitVec 8) : Statement (.rcr v) := rfl
theorem sal (v : BitVec 8) : Statement (.sal v) := rfl

end Sys2Proof.Laws.OpcodeRoundTrip
end

