-- ==== Sys2Proof/Laws/Run.lean ====
section
/-! SUPPORT. The run loop: what dispatching a record, the loop's case on its outcome, and one step can do. -/

namespace Sys2Proof.Machine

/-- What dispatching a record did: its instruction's handler succeeded, or an error was taken. -/
theorem dispatch_next {r : Record} {s t : State} (h : dispatch r s = .next t) :
    s.status = .running
      ∧ ((∃ i u, decode r = .ok i ∧ formOutcome s i.form = .ok u ∧ t = u.succeed) ∨ ∃ e, t = s.raise e) := by
  unfold dispatch at h
  split at h
  · obtain ⟨hs, ⟨u, hu, rfl⟩ | ⟨e, -, rfl⟩⟩ := exec_next h
    · exact ⟨hs, .inl ⟨_, u, ‹_›, hu, rfl⟩⟩
    · exact ⟨hs, .inr ⟨e, rfl⟩⟩
  · obtain ⟨hs, ⟨u, hu, -⟩ | ⟨e, -, rfl⟩⟩ := deliver_next h
    · cases hu
    · exact ⟨hs, .inr ⟨e, rfl⟩⟩

/-- The loop goes on, completes, or stops with the error raised; it goes on after success and UnimplementedOpcode only. -/
theorem afterRecord_cases (rest : List Record) (u : State) :
    (afterRecord rest u = u.continueRun rest
        ∧ (u.raised = none ∨ ∃ id, u.raised = some (.unimplementedOpcode id)))
      ∨ afterRecord rest u = u.completeRun
      ∨ ∃ e, u.raised = some e ∧ afterRecord rest u = u.stopRun e := by
  cases h : u.raised with
  | none => exact .inl ⟨by simp [afterRecord, h], .inl rfl⟩
  | some e =>
    cases e with
    | normalTermination => exact .inr (.inl (by simp [afterRecord, h, Error.category]))
    | unimplementedOpcode id =>
      cases hk : u.skipUnimplemented with
      | true => exact .inl ⟨by simp [afterRecord, h, hk, Error.category], .inr ⟨id, rfl⟩⟩
      | false => exact .inr (.inr ⟨_, rfl, by simp [afterRecord, h, hk, Error.category]⟩)
    | _ => exact .inr (.inr ⟨_, rfl, by simp [afterRecord, h, Error.category]⟩)

/-- What a step that gives a next state did. -/
theorem step_next {s t : State} (h : step s = .next t) :
    s.status = .running
      ∧ ((s.run ≠ .active ∧ t = s)
        ∨ (s.run = .active ∧ s.stream = [] ∧ t = s.completeRun)
        ∨ (s.run = .active ∧ ∃ r rest u, s.stream = r :: rest ∧ dispatch r s = .next u ∧ t = afterRecord rest u)) := by
  simp only [step] at h
  split at h
  · cases h
  refine ⟨‹_›, ?_⟩
  simp only [runStep] at h
  split at h
  · split at h
    · cases h; exact .inr (.inl ⟨‹_›, ‹_›, rfl⟩)
    · simp only [runRecord] at h
      split at h <;> cases h
      exact .inr (.inr ⟨‹_›, _, _, _, ‹_›, ‹_›, rfl⟩)
  all_goals exact .inl ⟨by simp [*], by cases h; rfl⟩

/-- Running the machine from a state that has a next state. -/
theorem core_run_succ {k : Nat} {s t : State} (h : step s = .next t) :
    Host.Core.run core (k + 1) s = Host.Core.run core k t := by
  have e : core.step s = .next t := h
  have hr := Host.Core.run.eq_2 core s k
  rw [e] at hr
  exact hr

end Sys2Proof.Machine
end

