-- ==== Sys2Proof/Laws/Reads.lean ====
section
/-! SUPPORT. What the operations and the handlers do not read: FLAGS and the position in the stream. Each lemma says that
an operation on a state with other FLAGS and another position does what it does on the state. -/

namespace Sys2Proof.Machine

/-- The state with other FLAGS and another position in the stream. -/
def State.withOther (s : State) (g : Word) (rs : List Record) (n : Nat) : State :=
  { s with flags := g, stream := rs, index := n }

variable (s : State) (g : Word) (rs : List Record) (n : Nat) (id : OpcodeId) (w : Width)

/-- Resolving reads neither. -/
theorem resolve_withOther (k : Nat) (d : Desc) : (s.withOther g rs n).resolve id k d = s.resolve id k d := by
  cases d <;> rfl

/-- Reading an operand reads neither. -/
theorem opRead_withOther (o : Operand) : (s.withOther g rs n).opRead id o w = s.opRead id o w := by cases o <;> rfl

/-- A memory write reads neither and keeps both. -/
theorem memWrite_withOther (a v : Word) :
    (s.withOther g rs n).memWrite a w v = (s.memWrite a w v).map fun u => u.withOther g rs n := by
  simp only [State.memWrite]
  split <;> rename_i h
  · rw [if_pos (by exact h)]; rfl
  · rw [if_neg (by exact h)]; rfl

/-- Writing an operand reads neither and keeps both. -/
theorem opWrite_withOther (o : Operand) (v : Word) :
    (s.withOther g rs n).opWrite id o w v = (s.opWrite id o w v).map fun u => u.withOther g rs n := by
  cases o with
  | reg => simp only [State.opWrite]; split <;> rfl
  | mem => exact memWrite_withOther ..
  | imm => rfl

/-- A commit merges its masks into whatever FLAGS holds. -/
theorem commit_withOther (o : Operand) (out : EngineOut) :
    (s.withOther g rs n).commit id o w out
      = (s.commit id o w out).map fun u => u.withOther (mergeFlags g out.defMask out.setMask) rs n := by
  simp only [State.commit]
  split
  · rw [opWrite_withOther]
    cases s.opWrite id o w out.result <;> rfl
  · rfl

/-- The operands of a shift depend on neither. -/
theorem shiftOperands_withOther (shape : ShiftShape) (f : Fields) :
    (s.withOther g rs n).shiftOperands id shape w f = s.shiftOperands id shape w f := by
  cases shape <;> simp only [State.shiftOperands, State.oneOperand, State.countedOperands, resolve_withOther]
  rfl

/-- The operand of PUSH and POP depends on neither. -/
theorem stackOperand_withOther (f : Fields) :
    (s.withOther g rs n).stackOperand id w f = s.stackOperand id w f := by
  simp only [State.stackOperand, resolve_withOther]

/-- The loop's case on an outcome reads no flag and keeps FLAGS. -/
theorem afterRecord_withFlags (rest : List Record) :
    afterRecord rest { s with flags := g } = { afterRecord rest s with flags := g } := by
  cases h : s.raised with
  | none => simp [afterRecord, h, State.continueRun]
  | some e =>
    cases e <;> cases hk : s.skipUnimplemented <;>
      simp [afterRecord, h, hk, Error.category, State.continueRun, State.stopRun, State.completeRun]

variable {s id w}

/-- FLAGS after a commit. -/
theorem commit_flags {u : State} {o : Operand} {out : EngineOut} (h : s.commit id o w out = .ok u) :
    u.flags = mergeFlags s.flags out.defMask out.setMask := by
  rcases commit_ok h with ⟨-, v, hv, rfl⟩ | ⟨-, rfl⟩
  · rcases opWrite_ok hv with ⟨i, -, rfl⟩ | ⟨ea, -, hacc, rfl⟩ <;> rfl
  · rfl

/-- What a handler's success reads of FLAGS and of the position in the stream: nothing; it merges the same masks into
whatever FLAGS holds, masks inside the six flags, and of no flag where it is no engine instruction. -/
theorem formOutcome_withOther_ok {u : State} {F : Form} (h : formOutcome s F = .ok u) :
    ∃ d m, SixOnly d ∧ SixOnly m ∧ u.flags = mergeFlags s.flags d m
      ∧ (∀ g rs n, formOutcome (s.withOther g rs n) F = .ok (u.withOther (mergeFlags g d m) rs n))
      ∧ ((∀ op shape w f, F ≠ .alu2 op shape w f) → (∀ op shape w f, F ≠ .shift op shape w f) → d = 0 ∧ m = 0) := by
  cases F with
  | alu2 op shape w f =>
    obtain ⟨dst, src, a, b, h1, h2, h3, h4, h5, hc⟩ := exec2_ok h
    refine ⟨_, _, (afe_sixOnly ..).1, (afe_sixOnly ..).2, commit_flags hc, fun g rs n => ?_, fun h => absurd rfl (h _ _ _ _)⟩
    simp only [formOutcome, exec2] at h ⊢
    simp only [resolve_withOther, opRead_withOther, commit_withOther]
    obtain ⟨_, ha, h⟩ := bind_ok h; rw [ha]
    obtain ⟨_, hb, h⟩ := bind_ok h; rw [ok_bind, hb]
    obtain ⟨_, hb2, h⟩ := bind_ok h; rw [ok_bind, hb2]
    simp only [ok_bind, h1, h2, h3, check_true, h4, h5, hc]; rfl
  | shift op shape w f =>
    obtain ⟨dst, craw, a, h1, h2, hc⟩ := execShift_ok h
    refine ⟨_, _, (afe_sixOnly ..).1, (afe_sixOnly ..).2, commit_flags hc, fun g rs n => ?_, fun _ h => absurd rfl (h _ _ _ _)⟩
    simp only [formOutcome, execShift, shiftOperands_withOther, opRead_withOther, commit_withOther, h1, h2, hc, ok_bind]
    rfl
  | push w f =>
    refine ⟨0, 0, sixOnly_zero, sixOnly_zero, ?_, fun g rs n => ?_, fun _ _ => ⟨rfl, rfl⟩⟩
    · obtain ⟨i, -, hacc, rfl⟩ := pushHandler_ok h
      simp
    · simp only [formOutcome, pushHandler, stackOperand_withOther, opRead_withOther] at h ⊢
      obtain ⟨o, ha, h⟩ := bind_ok h
      obtain ⟨v, hv, h⟩ := bind_ok h
      obtain ⟨t, ht, h⟩ := bind_ok h
      cases h
      simp only [ha, hv, ok_bind, memWrite_withOther]
      rw [show (s.withOther g rs n).pushAddress w = s.pushAddress w from rfl, ht]
      simp [Except.map, State.withOther, State.setReg]
  | pop w f =>
    refine ⟨0, 0, sixOnly_zero, sixOnly_zero, ?_, fun g rs n => ?_, fun _ _ => ⟨rfl, rfl⟩⟩
    · obtain ⟨i, v, -, -, rfl⟩ := popHandler_ok h
      simp [State.regWrite]
    · simp only [formOutcome, popHandler, stackOperand_withOther] at h ⊢
      obtain ⟨o, ha, h⟩ := bind_ok h
      obtain ⟨v, hv, h⟩ := bind_ok h
      simp only [ha, ok_bind]
      rw [show (s.withOther g rs n).memRead ((s.withOther g rs n).reg .rsp) w = .ok v from hv]
      have := opWrite_withOther (s.setReg .rsp (s.popAddress w)) g rs n (stackId .pop w) w o v
      rw [h] at this
      simp only [ok_bind]
      refine this.trans ?_
      simp [Except.map]
  | defect32 op v => cases h
  | unported op v => cases h
  | reserved m v => cases h

/-- What a handler raises does not depend on FLAGS or the position in the stream. -/
theorem formOutcome_withOther_error {e : Error} {F : Form} (h : formOutcome s F = .error e) :
    formOutcome (s.withOther g rs n) F = .error e := by
  cases F with
  | alu2 op shape w f =>
    simp only [formOutcome, exec2] at h ⊢
    simp only [resolve_withOther, opRead_withOther, commit_withOther]
    iterate 8
      rcases bind_error h with h | ⟨_, ha, h⟩
      · rw [h]; rfl
      rw [ha, ok_bind]
    rw [h]; rfl
  | shift op shape w f =>
    simp only [formOutcome, execShift, shiftOperands_withOther, opRead_withOther, commit_withOther] at h ⊢
    rcases bind_error h with h | ⟨_, ha, h⟩
    · rw [h]; rfl
    rw [ha, ok_bind]
    rcases bind_error h with h | ⟨_, ha, h⟩
    · simp only [h]; rfl
    simp only [ha, ok_bind, h]; rfl
  | push w f =>
    simp only [formOutcome, pushHandler, stackOperand_withOther, opRead_withOther, memWrite_withOther] at h ⊢
    rcases bind_error h with h | ⟨_, ha, h⟩
    · rw [h]; rfl
    rw [ha, ok_bind]
    rcases bind_error h with h | ⟨_, ha, h⟩
    · rw [h]; rfl
    rw [ha, ok_bind]
    rcases bind_error h with h | ⟨_, ha, h⟩
    · rw [show (s.withOther g rs n).pushAddress w = s.pushAddress w from rfl, h]; rfl
    cases h
  | pop w f =>
    simp only [formOutcome, popHandler, stackOperand_withOther] at h ⊢
    rcases bind_error h with h | ⟨o, ha, h⟩
    · rw [h]; rfl
    rw [ha, ok_bind]
    rcases bind_error h with h | ⟨v, ha, h⟩
    · rw [show (s.withOther g rs n).memRead ((s.withOther g rs n).reg .rsp) w = .error e from h]; rfl
    · rw [show (s.withOther g rs n).memRead ((s.withOther g rs n).reg .rsp) w = .ok v from ha]
      have := opWrite_withOther (s.setReg .rsp (s.popAddress w)) g rs n (stackId .pop w) w o v
      rw [h] at this
      exact this
  | defect32 op v => exact h
  | unported op v => exact h
  | reserved m v => exact h

end Sys2Proof.Machine
end

