-- ==== Sys2Proof/Laws/Widths.lean ====
section
/-! SUPPORT. The engine's integer formulas as W-bit arithmetic: sums and differences, carries and overflows, shifts and
rotates, and the three flags of a result. -/

namespace Sys2Proof.Machine

variable {w : Width} {a b : Word}

theorem lowBits_of_lt (h : a.toNat < 2 ^ w.bits) : (lowBits w a).toNat = a.toNat := by
  rw [lowBits_toNat, Nat.mod_eq_of_lt h]

theorem atWidth_toNat (h : a.toNat < 2 ^ w.bits) : (atWidth w a).toNat = a.toNat := by
  rw [BitVec.toNat_setWidth, Nat.mod_eq_of_lt h]

theorem two_pow_bits (w : Width) : 2 ^ w.bits = 2 * 2 ^ (w.bits - 1) := by cases w <;> rfl

theorem testBit_msb (r : BitVec w.bits) : r.toNat.testBit (w.bits - 1) = r.msb := by
  rw [BitVec.msb_eq_getLsbD_last, BitVec.testBit_toNat]

/-- A result as a word. -/
theorem ofNat_eq_setWidth {r : Nat} {x : BitVec w.bits} (h : r = x.toNat) : BitVec.ofNat 64 r = x.setWidth 64 := by
  subst h
  exact BitVec.eq_of_toNat_eq (by simp)

/-- The three flags of a result, from the engine's formulas (R112 to R114). -/
theorem resultFlags_of {r : BitVec w.bits} {t : State} (h1 : t.flag .sf = signFlag r.toNat w.bits)
    (h2 : t.flag .zf = zeroFlag r.toNat) (h3 : t.flag .pf = parityFlag r.toNat) : ResultFlags w r t := by
  refine ⟨by rw [h1, signFlag, testBit_msb], by rw [h2]; simp [zeroFlag, BitVec.toNat_eq], ?_⟩
  rw [h3]
  simp only [parityFlag, popcount, beq_iff_eq, BitVec.testBit_toNat, List.range, List.range.loop, List.countP,
    List.countP.go]
  cases r.getLsbD 0 <;> cases r.getLsbD 1 <;> cases r.getLsbD 2 <;> cases r.getLsbD 3 <;> cases r.getLsbD 4 <;>
    cases r.getLsbD 5 <;> cases r.getLsbD 6 <;> cases r.getLsbD 7 <;> simp

/-! ## Addition and subtraction -/

theorem trunc_add (ha : a.toNat < 2 ^ w.bits) (hb : b.toNat < 2 ^ w.bits) :
    trunc w.bits ((a.toNat : Int) + b.toNat) = (atWidth w a + atWidth w b).toNat := by
  rw [BitVec.toNat_add, atWidth_toNat ha, atWidth_toNat hb, ← trunc_natCast]
  simp

theorem trunc_sub (ha : a.toNat < 2 ^ w.bits) (hb : b.toNat < 2 ^ w.bits) :
    trunc w.bits ((a.toNat : Int) - b.toNat) = (atWidth w a - atWidth w b).toNat := by
  rw [BitVec.toNat_sub, atWidth_toNat ha, atWidth_toNat hb, trunc]
  generalize 2 ^ w.bits = p at *
  have : ((a.toNat : Int) - b.toNat) % (p : Int) = ((p - b.toNat + a.toNat : Nat) : Int) % (p : Int) := by
    rw [show ((p - b.toNat + a.toNat : Nat) : Int) = ((a.toNat : Int) - b.toNat) + p by omega, Int.add_emod_right]
  rw [this]
  omega

theorem carryAdd_iff {d s : Nat} (hd : d < 2 ^ w.bits) (hs : s < 2 ^ w.bits) :
    carryAdd d s w.bits = true ↔ 2 ^ w.bits ≤ d + s := by
  rw [carryAdd, Nat.testBit_eq_decide_div_mod_eq, decide_eq_true_eq]
  generalize 2 ^ w.bits = p at *
  constructor
  · intro h
    by_contra hc
    rw [Nat.div_eq_of_lt (by omega)] at h
    simp at h
  · intro h
    rw [Nat.div_eq_of_lt_le (by omega : 1 * p ≤ d + s) (by omega)]

theorem carrySub_iff {d s : Nat} (hd : d < 2 ^ w.bits) (hs : s < 2 ^ w.bits) :
    carrySub d s w.bits = true ↔ d < s := by
  rw [carrySub, Nat.testBit_eq_decide_div_mod_eq, decide_eq_true_eq, trunc,
    show 2 ^ (2 * w.bits) = 2 ^ w.bits * 2 ^ w.bits by rw [← Nat.pow_add]; congr 1; omega]
  have hev := two_pow_bits w
  have hsq : 2 ^ w.bits * 1 ≤ 2 ^ w.bits * 2 ^ w.bits := Nat.mul_le_mul_left _ (by omega)
  by_cases h : d < s
  · have hm : ((d : Int) - s) % ((2 ^ w.bits * 2 ^ w.bits : Nat) : Int)
        = ((2 ^ w.bits * 2 ^ w.bits - (s - d) : Nat) : Int) := by
      rw [show ((2 ^ w.bits * 2 ^ w.bits - (s - d) : Nat) : Int)
        = ((d : Int) - s) + ((2 ^ w.bits * 2 ^ w.bits : Nat) : Int) by omega]
      rw [← Int.add_emod_right, Int.emod_eq_of_lt] <;> omega
    have hq : (2 ^ w.bits * 2 ^ w.bits - (s - d)) / 2 ^ w.bits = 2 ^ w.bits - 1 := by
      apply Nat.div_eq_of_lt_le
      · rw [Nat.sub_mul]; omega
      · rw [Nat.sub_add_cancel (by omega)]; omega
    rw [hm, Int.toNat_natCast, hq]
    omega
  · have hm : ((d : Int) - s) % ((2 ^ w.bits * 2 ^ w.bits : Nat) : Int) = ((d - s : Nat) : Int) := by
      rw [show ((d - s : Nat) : Int) = (d : Int) - s by omega]
      exact Int.emod_eq_of_lt (by omega) (by omega)
    rw [hm, Int.toNat_natCast, Nat.div_eq_of_lt (by omega)]
    simp [h]

theorem auxAdd_iff (d s : Nat) : auxAdd d s = true ↔ 16 ≤ d % 16 + s % 16 := by
  rw [auxAdd, Nat.testBit_eq_decide_div_mod_eq, decide_eq_true_eq]
  omega

theorem auxSub_iff (d s : Nat) : auxSub d s = true ↔ d % 16 < s % 16 := by
  unfold auxSub
  have h1 : d % 16 < 16 := Nat.mod_lt _ (by decide)
  have h2 : s % 16 < 16 := Nat.mod_lt _ (by decide)
  generalize d % 16 = x at *
  generalize s % 16 = y at *
  revert x y
  decide

theorem toInt_eq (x : BitVec w.bits) :
    x.toInt = if x.msb then (x.toNat : Int) - 2 * 2 ^ (w.bits - 1) else x.toNat := by
  rw [BitVec.toInt_eq_msb_cond]
  split
  · push_cast [two_pow_bits w]; rfl
  · rfl

/-- Overflow of an addition is signed overflow (R117). -/
theorem overflow_add_iff (x y : BitVec w.bits) :
    (x.msb = y.msb ∧ (x + y).msb ≠ x.msb)
      ↔ ¬ (-(2 : Int) ^ (w.bits - 1) ≤ x.toInt + y.toInt ∧ x.toInt + y.toInt < 2 ^ (w.bits - 1)) := by
  rw [toInt_eq x, toInt_eq y, BitVec.msb_eq_decide, BitVec.msb_eq_decide, BitVec.msb_eq_decide, BitVec.toNat_add]
  have hx := x.isLt
  have hy := y.isLt
  rw [two_pow_bits] at hx hy ⊢
  rw [show ((2 : Int) ^ (w.bits - 1)) = ((2 ^ (w.bits - 1) : Nat) : Int) by push_cast; rfl]
  generalize 2 ^ (w.bits - 1) = p at *
  generalize x.toNat = d at *
  generalize y.toNat = e at *
  have hm : (d + e) % (2 * p) = if d + e < 2 * p then d + e else d + e - 2 * p := by
    split
    · exact Nat.mod_eq_of_lt ‹_›
    · rw [Nat.mod_eq_sub_mod (by omega), Nat.mod_eq_of_lt (by omega)]
  rw [hm]
  simp only [ne_eq, decide_eq_decide, decide_eq_true_eq]
  split <;> split <;> split <;> omega

/-- Overflow of a subtraction is signed overflow (R118). -/
theorem overflow_sub_iff (x y : BitVec w.bits) :
    (x.msb ≠ y.msb ∧ (x - y).msb ≠ x.msb)
      ↔ ¬ (-(2 : Int) ^ (w.bits - 1) ≤ x.toInt - y.toInt ∧ x.toInt - y.toInt < 2 ^ (w.bits - 1)) := by
  rw [toInt_eq x, toInt_eq y, BitVec.msb_eq_decide, BitVec.msb_eq_decide, BitVec.msb_eq_decide, BitVec.toNat_sub]
  have hx := x.isLt
  have hy := y.isLt
  rw [two_pow_bits] at hx hy ⊢
  rw [show ((2 : Int) ^ (w.bits - 1)) = ((2 ^ (w.bits - 1) : Nat) : Int) by push_cast; rfl]
  generalize 2 ^ (w.bits - 1) = p at *
  generalize x.toNat = d at *
  generalize y.toNat = e at *
  have hm : (2 * p - e + d) % (2 * p) = if d < e then 2 * p - e + d else d - e := by
    split
    · exact Nat.mod_eq_of_lt (by omega)
    · rw [Nat.mod_eq_sub_mod (by omega), Nat.mod_eq_of_lt (by omega)]
      omega
  rw [hm]
  simp only [ne_eq, decide_eq_decide, decide_eq_true_eq]
  split <;> split <;> split <;> omega

/-! ## Shifts and rotates -/

/-- The masked count of the raw count byte (R150). -/
theorem maskedCount_lowBits (w : Width) (craw : Word) :
    maskedCount w.bits (lowBits .w8 craw).toNat = effectiveCount w craw := by
  rw [maskedCount_eq, lowBits_toNat]
  rfl

theorem trunc_shiftLeft {c : Nat} (ha : a.toNat < 2 ^ w.bits) :
    trunc w.bits ((a.toNat <<< c : Nat) : Int) = (atWidth w a <<< c).toNat := by
  rw [trunc_natCast, BitVec.toNat_shiftLeft, atWidth_toNat ha]

theorem shiftRight_atWidth {c : Nat} (ha : a.toNat < 2 ^ w.bits) : a.toNat >>> c = (atWidth w a >>> c).toNat := by
  rw [BitVec.toNat_ushiftRight, atWidth_toNat ha]

theorem trunc_sint_div {c : Nat} (ha : a.toNat < 2 ^ w.bits) :
    trunc w.bits (sint w.bits a.toNat / (2 ^ c : Nat)) = ((atWidth w a).sshiftRight c).toNat := by
  have hs : sint w.bits a.toNat = (atWidth w a).toInt := by
    rw [BitVec.toInt_eq_msb_cond, ← testBit_msb, atWidth_toNat ha, sint]
  have hr : ((atWidth w a).sshiftRight c).toNat = (((atWidth w a).toInt >>> c) % (2 ^ w.bits : Nat)).toNat := by
    rw [BitVec.sshiftRight_eq, BitVec.toNat_ofInt]
  rw [hs, hr, trunc, Int.shiftRight_eq_div_pow]

theorem rol_atWidth {c : Nat} (ha : a.toNat < 2 ^ w.bits) :
    (if c % w.bits > 0 then trunc w.bits ((a.toNat <<< (c % w.bits) : Nat) : Int) ||| a.toNat >>> (w.bits - c % w.bits)
      else a.toNat) = ((atWidth w a).rotateLeft c).toNat := by
  rw [BitVec.toNat_rotateLeft, atWidth_toNat ha]
  split
  · rw [trunc_natCast]
  · rw [show c % w.bits = 0 by omega]
    simp [Nat.mod_eq_of_lt ha, Nat.shiftRight_eq_div_pow, Nat.div_eq_of_lt ha]

theorem ror_atWidth {c : Nat} (ha : a.toNat < 2 ^ w.bits) :
    (if c % w.bits > 0 then a.toNat >>> (c % w.bits) ||| trunc w.bits ((a.toNat <<< (w.bits - c % w.bits) : Nat) : Int)
      else a.toNat) = ((atWidth w a).rotateRight c).toNat := by
  rw [BitVec.toNat_rotateRight, atWidth_toNat ha]
  split
  · rw [trunc_natCast]
  · rw [show c % w.bits = 0 by omega]
    simp [Nat.shiftLeft_eq]

end Sys2Proof.Machine
end

