-- ==== Sys2Proof/Tests/Slice0.lean ====
section
/-! SUPPORT. Tests. Expected results come from spec/: header words from the encoding tables of 30_encoding.md rules R82, R90
to R93, records and results from 95_test_vectors.md, 96_test_vectors_instructions.md and 97_programs.md. A `witness_`
theorem shows a state and operands that meet the hypotheses of the obligation it is named after. -/

open Sys2Proof Sys2Proof.Machine

namespace Sys2Proof.Tests.Slice0

/-- A predicate of the next state. -/
def nextIs (o : Host.Outcome State Fault Refusal) (p : State → Bool) : Bool :=
  match o with
  | .next t => p t
  | .fault _ => false
  | .refused _ => false

/-- The reset state with some registers, FLAGS and memory. -/
def S (regs : List (RegIdx × Word)) (flags : Word) (mem : Memory) : State :=
  regs.foldl (fun s r => s.setReg r.1 r.2) { State.reset with flags := flags, mem := mem }

/-- The state with one record issued. -/
def issue (s : State) (r : Record) : State := { s with stream := [r], run := .active }

/-- The record runs, and the instance is then that of `t`. -/
def gives (s : State) (r : Record) (t : State) : Bool :=
  nextIs (step (issue s r)) fun u => u == { t with index := 1, run := .active }

/-- The record raises `e`, the instance is unchanged, and the run stops with it. -/
def raises (s : State) (r : Record) (e : Error) : Bool :=
  nextIs (step (issue s r)) fun u =>
    u == { issue s r with raised := some e, run := .stopped 0 e, status := e.statusAfter .running }

/-- An operand slot with no reserved bit set. -/
def slot (d : Desc) : Slot := ⟨0, d⟩

/-- The fields of a header word on its own: an operand count and two slots of zeros. -/
def F (n : BitVec 2) : Fields := ⟨n, slot (.reg 0 0), slot (.reg 0 0)⟩

/-- Two operands. -/
def F2 (d0 d1 : Desc) : Fields := ⟨2, slot d0, slot d1⟩

/-- One operand. -/
def F1 (d0 : Desc) : Fields := ⟨1, slot d0, slot (.reg 0 0)⟩

/-- The header word `w` decodes to `i`. -/
abbrev DecodesTo (w : Nat) (i : Instr) : Prop := decodeTableWord 32 w = some i

/-- Header words that are rejected by the names beside them. -/
def rejects (rows : List (Nat × Reject)) : Bool :=
  rows.all fun r => decode (recordOfTableWord 32 r.1) == .error r.2

/-! ## Decoding: every row, its header word written out as `{opcount, variant, mnemonic}` -/

theorem test_decode_add :
    DecodesTo 0x00020000 (Instr.addRm8R8 (F 2))
      ∧ DecodesTo 0x00020100 (Instr.addRm16R16 (F 2))
      ∧ DecodesTo 0x00020200 (Instr.addRm32R32 (F 2))
      ∧ DecodesTo 0x00020300 (Instr.addRm64R64 (F 2))
      ∧ DecodesTo 0x00020400 (Instr.addR8Rm8 (F 2))
      ∧ DecodesTo 0x00020500 (Instr.addR16Rm16 (F 2))
      ∧ DecodesTo 0x00020600 (Instr.addR32Rm32 (F 2))
      ∧ DecodesTo 0x00020700 (Instr.addR64Rm64 (F 2))
      ∧ DecodesTo 0x00020800 (Instr.addAlImm8 (F 2))
      ∧ DecodesTo 0x00020900 (Instr.addAxImm16 (F 2))
      ∧ DecodesTo 0x00020A00 (Instr.addEaxImm32 (F 2))
      ∧ DecodesTo 0x00020B00 (Instr.addRaxImm32 (F 2))
      ∧ DecodesTo 0x00020C00 (Instr.addRm8Imm8 (F 2))
      ∧ DecodesTo 0x00020D00 (Instr.addRm16Imm16 (F 2))
      ∧ DecodesTo 0x00020E00 (Instr.addRm32Imm32 (F 2))
      ∧ DecodesTo 0x00020F00 (Instr.addRm64Imm32 (F 2))
      ∧ DecodesTo 0x00021100 (Instr.addRm16Imm8 (F 2))
      ∧ DecodesTo 0x00021200 (Instr.addRm32Imm8 (F 2))
      ∧ DecodesTo 0x00021300 (Instr.addRm64Imm8 (F 2)) := by decide

theorem test_decode_or :
    DecodesTo 0x00020001 (Instr.orRm8R8 (F 2))
      ∧ DecodesTo 0x00020101 (Instr.orRm16R16 (F 2))
      ∧ DecodesTo 0x00020201 (Instr.orRm32R32 (F 2))
      ∧ DecodesTo 0x00020301 (Instr.orRm64R64 (F 2))
      ∧ DecodesTo 0x00020401 (Instr.orR8Rm8 (F 2))
      ∧ DecodesTo 0x00020501 (Instr.orR16Rm16 (F 2))
      ∧ DecodesTo 0x00020601 (Instr.orR32Rm32 (F 2))
      ∧ DecodesTo 0x00020701 (Instr.orR64Rm64 (F 2))
      ∧ DecodesTo 0x00020801 (Instr.orAlImm8 (F 2))
      ∧ DecodesTo 0x00020901 (Instr.orAxImm16 (F 2))
      ∧ DecodesTo 0x00020A01 (Instr.orEaxImm32 (F 2))
      ∧ DecodesTo 0x00020B01 (Instr.orRaxImm32 (F 2))
      ∧ DecodesTo 0x00020C01 (Instr.orRm8Imm8 (F 2))
      ∧ DecodesTo 0x00020D01 (Instr.orRm16Imm16 (F 2))
      ∧ DecodesTo 0x00020E01 (Instr.orRm32Imm32 (F 2))
      ∧ DecodesTo 0x00020F01 (Instr.orRm64Imm32 (F 2))
      ∧ DecodesTo 0x00021101 (Instr.orRm16Imm8 (F 2))
      ∧ DecodesTo 0x00021201 (Instr.orRm32Imm8 (F 2))
      ∧ DecodesTo 0x00021301 (Instr.orRm64Imm8 (F 2)) := by decide

theorem test_decode_and :
    DecodesTo 0x00020004 (Instr.andRm8R8 (F 2))
      ∧ DecodesTo 0x00020104 (Instr.andRm16R16 (F 2))
      ∧ DecodesTo 0x00020204 (Instr.andRm32R32 (F 2))
      ∧ DecodesTo 0x00020304 (Instr.andRm64R64 (F 2))
      ∧ DecodesTo 0x00020404 (Instr.andR8Rm8 (F 2))
      ∧ DecodesTo 0x00020504 (Instr.andR16Rm16 (F 2))
      ∧ DecodesTo 0x00020604 (Instr.andR32Rm32 (F 2))
      ∧ DecodesTo 0x00020704 (Instr.andR64Rm64 (F 2))
      ∧ DecodesTo 0x00020804 (Instr.andAlImm8 (F 2))
      ∧ DecodesTo 0x00020904 (Instr.andAxImm16 (F 2))
      ∧ DecodesTo 0x00020A04 (Instr.andEaxImm32 (F 2))
      ∧ DecodesTo 0x00020B04 (Instr.andRaxImm32 (F 2))
      ∧ DecodesTo 0x00020C04 (Instr.andRm8Imm8 (F 2))
      ∧ DecodesTo 0x00020D04 (Instr.andRm16Imm16 (F 2))
      ∧ DecodesTo 0x00020E04 (Instr.andRm32Imm32 (F 2))
      ∧ DecodesTo 0x00020F04 (Instr.andRm64Imm32 (F 2))
      ∧ DecodesTo 0x00021104 (Instr.andRm16Imm8 (F 2))
      ∧ DecodesTo 0x00021204 (Instr.andRm32Imm8 (F 2))
      ∧ DecodesTo 0x00021304 (Instr.andRm64Imm8 (F 2)) := by decide

theorem test_decode_sub :
    DecodesTo 0x00020005 (Instr.subRm8R8 (F 2))
      ∧ DecodesTo 0x00020105 (Instr.subRm16R16 (F 2))
      ∧ DecodesTo 0x00020205 (Instr.subRm32R32 (F 2))
      ∧ DecodesTo 0x00020305 (Instr.subRm64R64 (F 2))
      ∧ DecodesTo 0x00020405 (Instr.subR8Rm8 (F 2))
      ∧ DecodesTo 0x00020505 (Instr.subR16Rm16 (F 2))
      ∧ DecodesTo 0x00020605 (Instr.subR32Rm32 (F 2))
      ∧ DecodesTo 0x00020705 (Instr.subR64Rm64 (F 2))
      ∧ DecodesTo 0x00020805 (Instr.subAlImm8 (F 2))
      ∧ DecodesTo 0x00020905 (Instr.subAxImm16 (F 2))
      ∧ DecodesTo 0x00020A05 (Instr.subEaxImm32 (F 2))
      ∧ DecodesTo 0x00020B05 (Instr.subRaxImm32 (F 2))
      ∧ DecodesTo 0x00020C05 (Instr.subRm8Imm8 (F 2))
      ∧ DecodesTo 0x00020D05 (Instr.subRm16Imm16 (F 2))
      ∧ DecodesTo 0x00020E05 (Instr.subRm32Imm32 (F 2))
      ∧ DecodesTo 0x00020F05 (Instr.subRm64Imm32 (F 2))
      ∧ DecodesTo 0x00021105 (Instr.subRm16Imm8 (F 2))
      ∧ DecodesTo 0x00021205 (Instr.subRm32Imm8 (F 2))
      ∧ DecodesTo 0x00021305 (Instr.subRm64Imm8 (F 2)) := by decide

theorem test_decode_xor :
    DecodesTo 0x00020006 (Instr.xorRm8R8 (F 2))
      ∧ DecodesTo 0x00020106 (Instr.xorRm16R16 (F 2))
      ∧ DecodesTo 0x00020206 (Instr.xorRm32R32 (F 2))
      ∧ DecodesTo 0x00020306 (Instr.xorRm64R64 (F 2))
      ∧ DecodesTo 0x00020406 (Instr.xorR8Rm8 (F 2))
      ∧ DecodesTo 0x00020506 (Instr.xorR16Rm16 (F 2))
      ∧ DecodesTo 0x00020606 (Instr.xorR32Rm32 (F 2))
      ∧ DecodesTo 0x00020706 (Instr.xorR64Rm64 (F 2))
      ∧ DecodesTo 0x00020806 (Instr.xorAlImm8 (F 2))
      ∧ DecodesTo 0x00020906 (Instr.xorAxImm16 (F 2))
      ∧ DecodesTo 0x00020A06 (Instr.xorEaxImm32 (F 2))
      ∧ DecodesTo 0x00020B06 (Instr.xorRaxImm32 (F 2))
      ∧ DecodesTo 0x00020C06 (Instr.xorRm8Imm8 (F 2))
      ∧ DecodesTo 0x00020D06 (Instr.xorRm16Imm16 (F 2))
      ∧ DecodesTo 0x00020E06 (Instr.xorRm32Imm32 (F 2))
      ∧ DecodesTo 0x00020F06 (Instr.xorRm64Imm32 (F 2))
      ∧ DecodesTo 0x00021106 (Instr.xorRm16Imm8 (F 2))
      ∧ DecodesTo 0x00021206 (Instr.xorRm32Imm8 (F 2))
      ∧ DecodesTo 0x00021306 (Instr.xorRm64Imm8 (F 2)) := by decide

theorem test_decode_cmp :
    DecodesTo 0x00020007 (Instr.cmpRm8R8 (F 2))
      ∧ DecodesTo 0x00020107 (Instr.cmpRm16R16 (F 2))
      ∧ DecodesTo 0x00020207 (Instr.cmpRm32R32 (F 2))
      ∧ DecodesTo 0x00020307 (Instr.cmpRm64R64 (F 2))
      ∧ DecodesTo 0x00020407 (Instr.cmpR8Rm8 (F 2))
      ∧ DecodesTo 0x00020507 (Instr.cmpR16Rm16 (F 2))
      ∧ DecodesTo 0x00020607 (Instr.cmpR32Rm32 (F 2))
      ∧ DecodesTo 0x00020707 (Instr.cmpR64Rm64 (F 2))
      ∧ DecodesTo 0x00020807 (Instr.cmpAlImm8 (F 2))
      ∧ DecodesTo 0x00020907 (Instr.cmpAxImm16 (F 2))
      ∧ DecodesTo 0x00020A07 (Instr.cmpEaxImm32 (F 2))
      ∧ DecodesTo 0x00020B07 (Instr.cmpRaxImm32 (F 2))
      ∧ DecodesTo 0x00020C07 (Instr.cmpRm8Imm8 (F 2))
      ∧ DecodesTo 0x00020D07 (Instr.cmpRm16Imm16 (F 2))
      ∧ DecodesTo 0x00020E07 (Instr.cmpRm32Imm32 (F 2))
      ∧ DecodesTo 0x00020F07 (Instr.cmpRm64Imm32 (F 2))
      ∧ DecodesTo 0x00021107 (Instr.cmpRm16Imm8 (F 2))
      ∧ DecodesTo 0x00021207 (Instr.cmpRm32Imm8 (F 2))
      ∧ DecodesTo 0x00021307 (Instr.cmpRm64Imm8 (F 2)) := by decide

theorem test_decode_rol :
    DecodesTo 0x00010010 (Instr.rolRm8By1 (F 1))
      ∧ DecodesTo 0x00010110 (Instr.rolRm16By1 (F 1))
      ∧ DecodesTo 0x00010210 (Instr.rolRm32By1 (F 1))
      ∧ DecodesTo 0x00010310 (Instr.rolRm64By1 (F 1))
      ∧ DecodesTo 0x00020410 (Instr.rolRm8Cl (F 2))
      ∧ DecodesTo 0x00020510 (Instr.rolRm16Cl (F 2))
      ∧ DecodesTo 0x00020610 (Instr.rolRm32Cl (F 2))
      ∧ DecodesTo 0x00020710 (Instr.rolRm64Cl (F 2))
      ∧ DecodesTo 0x00020810 (Instr.rolRm8Imm8 (F 2))
      ∧ DecodesTo 0x00020910 (Instr.rolRm16Imm8 (F 2))
      ∧ DecodesTo 0x00020A10 (Instr.rolRm32Imm8 (F 2))
      ∧ DecodesTo 0x00020B10 (Instr.rolRm64Imm8 (F 2)) := by decide

theorem test_decode_ror :
    DecodesTo 0x00010011 (Instr.rorRm8By1 (F 1))
      ∧ DecodesTo 0x00010111 (Instr.rorRm16By1 (F 1))
      ∧ DecodesTo 0x00010211 (Instr.rorRm32By1 (F 1))
      ∧ DecodesTo 0x00010311 (Instr.rorRm64By1 (F 1))
      ∧ DecodesTo 0x00020411 (Instr.rorRm8Cl (F 2))
      ∧ DecodesTo 0x00020511 (Instr.rorRm16Cl (F 2))
      ∧ DecodesTo 0x00020611 (Instr.rorRm32Cl (F 2))
      ∧ DecodesTo 0x00020711 (Instr.rorRm64Cl (F 2))
      ∧ DecodesTo 0x00020811 (Instr.rorRm8Imm8 (F 2))
      ∧ DecodesTo 0x00020911 (Instr.rorRm16Imm8 (F 2))
      ∧ DecodesTo 0x00020A11 (Instr.rorRm32Imm8 (F 2))
      ∧ DecodesTo 0x00020B11 (Instr.rorRm64Imm8 (F 2)) := by decide

theorem test_decode_shl :
    DecodesTo 0x00010014 (Instr.shlRm8By1 (F 1))
      ∧ DecodesTo 0x00010114 (Instr.shlRm16By1 (F 1))
      ∧ DecodesTo 0x00010214 (Instr.shlRm32By1 (F 1))
      ∧ DecodesTo 0x00010314 (Instr.shlRm64By1 (F 1))
      ∧ DecodesTo 0x00020414 (Instr.shlRm8Cl (F 2))
      ∧ DecodesTo 0x00020514 (Instr.shlRm16Cl (F 2))
      ∧ DecodesTo 0x00020614 (Instr.shlRm32Cl (F 2))
      ∧ DecodesTo 0x00020714 (Instr.shlRm64Cl (F 2))
      ∧ DecodesTo 0x00020814 (Instr.shlRm8Imm8 (F 2))
      ∧ DecodesTo 0x00020914 (Instr.shlRm16Imm8 (F 2))
      ∧ DecodesTo 0x00020A14 (Instr.shlRm32Imm8 (F 2))
      ∧ DecodesTo 0x00020B14 (Instr.shlRm64Imm8 (F 2)) := by decide

theorem test_decode_shr :
    DecodesTo 0x00010015 (Instr.shrRm8By1 (F 1))
      ∧ DecodesTo 0x00010115 (Instr.shrRm16By1 (F 1))
      ∧ DecodesTo 0x00010215 (Instr.shrRm32By1 (F 1))
      ∧ DecodesTo 0x00010315 (Instr.shrRm64By1 (F 1))
      ∧ DecodesTo 0x00020415 (Instr.shrRm8Cl (F 2))
      ∧ DecodesTo 0x00020515 (Instr.shrRm16Cl (F 2))
      ∧ DecodesTo 0x00020615 (Instr.shrRm32Cl (F 2))
      ∧ DecodesTo 0x00020715 (Instr.shrRm64Cl (F 2))
      ∧ DecodesTo 0x00020815 (Instr.shrRm8Imm8 (F 2))
      ∧ DecodesTo 0x00020915 (Instr.shrRm16Imm8 (F 2))
      ∧ DecodesTo 0x00020A15 (Instr.shrRm32Imm8 (F 2))
      ∧ DecodesTo 0x00020B15 (Instr.shrRm64Imm8 (F 2)) := by decide

theorem test_decode_sar :
    DecodesTo 0x00010017 (Instr.sarRm8By1 (F 1))
      ∧ DecodesTo 0x00010117 (Instr.sarRm16By1 (F 1))
      ∧ DecodesTo 0x00010217 (Instr.sarRm32By1 (F 1))
      ∧ DecodesTo 0x00010317 (Instr.sarRm64By1 (F 1))
      ∧ DecodesTo 0x00020417 (Instr.sarRm8Cl (F 2))
      ∧ DecodesTo 0x00020517 (Instr.sarRm16Cl (F 2))
      ∧ DecodesTo 0x00020617 (Instr.sarRm32Cl (F 2))
      ∧ DecodesTo 0x00020717 (Instr.sarRm64Cl (F 2))
      ∧ DecodesTo 0x00020817 (Instr.sarRm8Imm8 (F 2))
      ∧ DecodesTo 0x00020917 (Instr.sarRm16Imm8 (F 2))
      ∧ DecodesTo 0x00020A17 (Instr.sarRm32Imm8 (F 2))
      ∧ DecodesTo 0x00020B17 (Instr.sarRm64Imm8 (F 2)) := by decide

theorem test_decode_push :
    DecodesTo 0x00010120 (Instr.pushR16 (F 1))
      ∧ DecodesTo 0x00010320 (Instr.pushR64 (F 1))
      ∧ DecodesTo 0x00000220 (Instr.pushR32)
      ∧ DecodesTo 0x00000620 (Instr.pushRm32)
      ∧ DecodesTo 0x00000A20 (Instr.pushImmOpsize32)
      ∧ DecodesTo 0x00000520 (Instr.pushRm16)
      ∧ DecodesTo 0x00000720 (Instr.pushRm64)
      ∧ DecodesTo 0x00000920 (Instr.pushImmOpsize16)
      ∧ DecodesTo 0x00000B20 (Instr.pushImmOpsize64) := by decide

theorem test_decode_pop :
    DecodesTo 0x00010121 (Instr.popR16 (F 1))
      ∧ DecodesTo 0x00010321 (Instr.popR64 (F 1))
      ∧ DecodesTo 0x00000221 (Instr.popR32)
      ∧ DecodesTo 0x00000621 (Instr.popRm32)
      ∧ DecodesTo 0x00000A21 (Instr.popImmOpsize32)
      ∧ DecodesTo 0x00000521 (Instr.popRm16)
      ∧ DecodesTo 0x00000721 (Instr.popRm64) := by decide

theorem test_decode_reserved_ids :
    DecodesTo 0x00000002 (Instr.adc 0x00)
      ∧ DecodesTo 0x0000FF02 (Instr.adc 0xFF)
      ∧ DecodesTo 0x00000003 (Instr.sbb 0x00)
      ∧ DecodesTo 0x0000FF03 (Instr.sbb 0xFF)
      ∧ DecodesTo 0x00000012 (Instr.rcl 0x00)
      ∧ DecodesTo 0x0000FF12 (Instr.rcl 0xFF)
      ∧ DecodesTo 0x00000013 (Instr.rcr 0x00)
      ∧ DecodesTo 0x0000FF13 (Instr.rcr 0xFF)
      ∧ DecodesTo 0x00000016 (Instr.sal 0x00)
      ∧ DecodesTo 0x0000FF16 (Instr.sal 0xFF) := by decide

/-- R89, R95: the header's reserved bits first, then unknown mnemonics, then unknown variants. -/
theorem test_decode_rejects : rejects [
    (0x00040000, .reservedBits ⟨0x00, 0x00⟩), (0x80000090, .reservedBits ⟨0x90, 0x00⟩),
    (0x00000008, .noTable ⟨0x08, 0x00⟩), (0x0000000F, .noTable ⟨0x0F, 0x00⟩), (0x00000018, .noTable ⟨0x18, 0x00⟩),
    (0x0000FF1F, .noTable ⟨0x1F, 0xFF⟩), (0x00000022, .noTable ⟨0x22, 0x00⟩), (0x000000FF, .noTable ⟨0xFF, 0x00⟩),
    (0x00021000, .unrecognisedVariant ⟨0x00, 0x10⟩), (0x00021407, .unrecognisedVariant ⟨0x07, 0x14⟩),
    (0x00020C10, .unrecognisedVariant ⟨0x10, 0x0C⟩), (0x0002FF17, .unrecognisedVariant ⟨0x17, 0xFF⟩),
    (0x00000020, .unrecognisedVariant ⟨0x20, 0x00⟩), (0x00000420, .unrecognisedVariant ⟨0x20, 0x04⟩),
    (0x00000C20, .unrecognisedVariant ⟨0x20, 0x0C⟩), (0x00000921, .unrecognisedVariant ⟨0x21, 0x09⟩),
    (0x00000B21, .unrecognisedVariant ⟨0x21, 0x0B⟩)] = true := by decide

/-- The memory descriptors of V-SRC6 and V-SRC9 (95_test_vectors.md) with displacements of this test, and one with
neither base nor index (30_encoding.md rule R73). -/
theorem test_decode_memory_descriptor :
    decodeDesc 0x0000040D 0x10 = .mem (some 3) none .x1 0x10
      ∧ decodeDesc 0x00036C0D 0x20 = .mem (some 3) (some 6) .x8 0x20
      ∧ decodeDesc 0x00000001 0x4003 = .mem none none .x1 0x4003 := by decide

theorem test_encode_words :
    encode (.addRm32R32 (F2 (.mem (some 3) (some 6) .x8 0) (.reg 0 4)))
        = 0x000000000000000000000100000000000000000000036C0D00020200
      ∧ encode (.shlRm64Imm8 (F2 (.reg 3 8) (.imm 1 3)))
        = 0x00000000000000030000004200000000000000000000020C00020B14 := by decide

/-! ## WellFormed: a good term and an ill-formed one for each check -/

theorem test_wf_alu2 :
    (Instr.addRm64R64 (F2 (.reg 0 8) (.reg 3 8))).wellFormed = true
      ∧ (Instr.addRm64R64 (F1 (.reg 0 8))).wellFormed = false
      ∧ (Instr.addRm64R64 ⟨2, ⟨1, .reg 0 8⟩, slot (.reg 3 8)⟩).wellFormed = false
      ∧ (Instr.addRm64R64 ⟨2, slot (.reg 0 8), ⟨1, .reg 3 8⟩⟩).wellFormed = false
      ∧ (Instr.addRm64R64 (F2 (.imm 8 0) (.reg 3 8))).wellFormed = false
      ∧ (Instr.addRm64R64 (F2 (.reg 0 4) (.reg 3 8))).wellFormed = false
      ∧ (Instr.addRm64R64 (F2 (.reg 0 8) (.mem none none .x1 0))).wellFormed = false
      ∧ (Instr.addRm64R64 (F2 (.reg 0 8) .unrecognised)).wellFormed = false
      ∧ (Instr.addR64Rm64 (F2 (.mem none none .x1 0) (.reg 3 8))).wellFormed = false
      ∧ (Instr.addRaxImm32 (F2 (.reg 1 8) (.imm 4 0))).wellFormed = false
      ∧ (Instr.addRm64Imm32 (F2 (.reg 1 8) (.imm 1 0))).wellFormed = false
      ∧ (Instr.addRm64Imm8 (F2 (.reg 1 8) (.imm 4 0))).wellFormed = false := by decide

theorem test_wf_shift :
    (Instr.shlRm64By1 (F1 (.reg 0 8))).wellFormed = true
      ∧ (Instr.shlRm64By1 ⟨1, slot (.reg 0 8), ⟨0x3FFF, .unrecognised⟩⟩).wellFormed = true
      ∧ (Instr.shlRm64By1 (F2 (.reg 0 8) (.reg 1 1))).wellFormed = false
      ∧ (Instr.shlRm64By1 ⟨1, ⟨1, .reg 0 8⟩, slot (.reg 0 0)⟩).wellFormed = false
      ∧ (Instr.shlRm64By1 (F1 (.imm 8 0))).wellFormed = false
      ∧ (Instr.shlRm64Cl (F2 (.reg 0 8) (.reg 2 1))).wellFormed = false
      ∧ (Instr.shlRm64Cl ⟨2, slot (.reg 0 8), ⟨1, .reg 1 1⟩⟩).wellFormed = false
      ∧ (Instr.shlRm64Imm8 (F2 (.reg 0 8) (.imm 4 0))).wellFormed = false := by decide

theorem test_wf_stack :
    (Instr.pushR64 (F1 (.reg 0 8))).wellFormed = true
      ∧ (Instr.pushR64 (F2 (.reg 0 8) (.reg 0 0))).wellFormed = false
      ∧ (Instr.popR16 ⟨1, ⟨1, .reg 0 2⟩, slot (.reg 0 0)⟩).wellFormed = false
      ∧ (Instr.popR16 (F1 (.reg 0 8))).wellFormed = false
      ∧ (Instr.popR16 (F1 (.mem none none .x1 0))).wellFormed = false
      ∧ (Form.push .w32 (F1 (.reg 0 4))).wellFormed = false := by decide

/-! ## The engine: rows of 95_test_vectors.md section 2 -/

/-- V-A2, V-A6, V-A9, V-A14, V-A15. -/
theorem test_engine_add :
    afe .add .w8 0xFF 0x01 = ⟨0x00, true, 0x8D5, 0x055⟩
      ∧ afe .add .w16 0x7FFF 0x0001 = ⟨0x8000, true, 0x8D5, 0x894⟩
      ∧ afe .add .w32 0x7FFFFFFF 0x7FFFFFFF = ⟨0xFFFFFFFE, true, 0x8D5, 0x890⟩
      ∧ afe .add .w64 0x8000000000000000 0x8000000000000000 = ⟨0x0000000000000000, true, 0x8D5, 0x845⟩
      ∧ afe .add .w64 0x0123456789ABCDEF 0xFEDCBA9876543210 = ⟨0xFFFFFFFFFFFFFFFF, true, 0x8D5, 0x084⟩ := by decide

/-- V-A16, V-A17, V-A22, V-A24, V-A27. -/
theorem test_engine_sub :
    afe .sub .w8 0x00 0x01 = ⟨0xFF, true, 0x8D5, 0x095⟩
      ∧ afe .sub .w8 0x80 0x01 = ⟨0x7F, true, 0x8D5, 0x810⟩
      ∧ afe .sub .w16 0x8000 0x0001 = ⟨0x7FFF, true, 0x8D5, 0x814⟩
      ∧ afe .sub .w32 0x00000000 0x00000001 = ⟨0xFFFFFFFF, true, 0x8D5, 0x095⟩
      ∧ afe .sub .w64 0x8000000000000000 0x0000000000000001 = ⟨0x7FFFFFFFFFFFFFFF, true, 0x8D5, 0x814⟩ := by decide

/-- V-A29, V-A31, V-A33. -/
theorem test_engine_cmp :
    afe .cmp .w8 0x05 0x06 = ⟨0xFF, false, 0x8D5, 0x095⟩
      ∧ afe .cmp .w16 0x1234 0x1234 = ⟨0x0000, false, 0x8D5, 0x044⟩
      ∧ afe .cmp .w64 0x0000000000000000 0x8000000000000000 = ⟨0x8000000000000000, false, 0x8D5, 0x885⟩ := by decide

/-- V-L1, V-L4, V-L6. -/
theorem test_engine_and :
    afe .and .w8 0xF0 0x0F = ⟨0x00, true, 0x8C5, 0x044⟩
      ∧ afe .and .w16 0xFFFF 0x8001 = ⟨0x8001, true, 0x8C5, 0x080⟩
      ∧ afe .and .w64 0xFFFFFFFFFFFFFFFF 0x8000000000000000 = ⟨0x8000000000000000, true, 0x8C5, 0x084⟩ := by decide

/-- V-L7, V-L9, V-L11. -/
theorem test_engine_or :
    afe .or .w8 0x00 0x00 = ⟨0x00, true, 0x8C5, 0x044⟩
      ∧ afe .or .w16 0x0100 0x0000 = ⟨0x0100, true, 0x8C5, 0x004⟩
      ∧ afe .or .w64 0x0000000000000000 0x00000000000000FF = ⟨0x00000000000000FF, true, 0x8C5, 0x004⟩ := by decide

/-- V-L12, V-L14, V-L17. -/
theorem test_engine_xor :
    afe .xor .w8 0xAA 0xAA = ⟨0x00, true, 0x8C5, 0x044⟩
      ∧ afe .xor .w16 0x8000 0x0001 = ⟨0x8001, true, 0x8C5, 0x080⟩
      ∧ afe .xor .w64 0x0000000000000001 0x0000000000000003 = ⟨0x0000000000000002, true, 0x8C5, 0x000⟩ := by decide

/-- V-H1, V-H4, V-H7, V-H10, V-H13, V-H16, V-H19. -/
theorem test_engine_shl :
    afe .shl .w8 0x81 0x01 = ⟨0x02, true, 0x8C5, 0x801⟩
      ∧ afe .shl .w8 0x01 0x07 = ⟨0x80, true, 0x0C5, 0x080⟩
      ∧ afe .shl .w8 0xFF 0x20 = ⟨0xFF, true, 0x000, 0x000⟩
      ∧ afe .shl .w16 0x0001 0x10 = ⟨0x0000, true, 0x0C4, 0x044⟩
      ∧ afe .shl .w32 0x00000001 0x1F = ⟨0x80000000, true, 0x0C5, 0x084⟩
      ∧ afe .shl .w64 0x0000000000000001 0x3F = ⟨0x8000000000000000, true, 0x0C5, 0x084⟩
      ∧ afe .shl .w64 0x0000000000000003 0x7F = ⟨0x8000000000000000, true, 0x0C5, 0x085⟩ := by decide

/-- V-H20, V-H22, V-H24, V-H26, V-H28, V-H30. -/
theorem test_engine_shr :
    afe .shr .w8 0x81 0x01 = ⟨0x40, true, 0x8C5, 0x801⟩
      ∧ afe .shr .w8 0x80 0x07 = ⟨0x01, true, 0x0C5, 0x000⟩
      ∧ afe .shr .w8 0xFF 0x1F = ⟨0x00, true, 0x0C4, 0x044⟩
      ∧ afe .shr .w16 0xFFFF 0x10 = ⟨0x0000, true, 0x0C4, 0x044⟩
      ∧ afe .shr .w32 0xFFFFFFFF 0x01 = ⟨0x7FFFFFFF, true, 0x8C5, 0x805⟩
      ∧ afe .shr .w64 0x8000000000000000 0x01 = ⟨0x4000000000000000, true, 0x8C5, 0x804⟩ := by decide

/-- V-H32, V-H34, V-H36, V-H38, V-H40, V-H42, V-H44. -/
theorem test_engine_sar :
    afe .sar .w8 0x81 0x01 = ⟨0xC0, true, 0x8C5, 0x085⟩
      ∧ afe .sar .w8 0x80 0x08 = ⟨0xFF, true, 0x0C5, 0x085⟩
      ∧ afe .sar .w8 0xFF 0x1F = ⟨0xFF, true, 0x0C5, 0x085⟩
      ∧ afe .sar .w16 0x8000 0x0F = ⟨0xFFFF, true, 0x0C5, 0x084⟩
      ∧ afe .sar .w32 0x80000000 0x1F = ⟨0xFFFFFFFF, true, 0x0C5, 0x084⟩
      ∧ afe .sar .w64 0x8000000000000000 0x3F = ⟨0xFFFFFFFFFFFFFFFF, true, 0x0C5, 0x084⟩
      ∧ afe .sar .w64 0xFFFFFFFFFFFFFFFF 0x01 = ⟨0xFFFFFFFFFFFFFFFF, true, 0x8C5, 0x085⟩ := by decide

/-- V-R1, V-R3, V-R5, V-R7, V-R9, V-R11, V-R13. -/
theorem test_engine_rol :
    afe .rol .w8 0x81 0x01 = ⟨0x03, true, 0x801, 0x801⟩
      ∧ afe .rol .w8 0x81 0x04 = ⟨0x18, true, 0x001, 0x000⟩
      ∧ afe .rol .w8 0x80 0x09 = ⟨0x01, true, 0x001, 0x001⟩
      ∧ afe .rol .w8 0x00 0x03 = ⟨0x00, true, 0x001, 0x000⟩
      ∧ afe .rol .w16 0x1234 0x10 = ⟨0x1234, true, 0x001, 0x000⟩
      ∧ afe .rol .w32 0x80000000 0x01 = ⟨0x00000001, true, 0x801, 0x801⟩
      ∧ afe .rol .w64 0x8000000000000000 0x01 = ⟨0x0000000000000001, true, 0x801, 0x801⟩ := by decide

/-- V-R16, V-R18, V-R20, V-R22, V-R24, V-R26. -/
theorem test_engine_ror :
    afe .ror .w8 0x01 0x01 = ⟨0x80, true, 0x801, 0x801⟩
      ∧ afe .ror .w8 0x81 0x01 = ⟨0xC0, true, 0x801, 0x001⟩
      ∧ afe .ror .w8 0x01 0x09 = ⟨0x80, true, 0x001, 0x001⟩
      ∧ afe .ror .w16 0x1234 0x04 = ⟨0x4123, true, 0x001, 0x000⟩
      ∧ afe .ror .w32 0x12345678 0x08 = ⟨0x78123456, true, 0x001, 0x000⟩
      ∧ afe .ror .w64 0x0123456789ABCDEF 0x04 = ⟨0xF0123456789ABCDE, true, 0x001, 0x001⟩ := by decide

/-- V-F1, V-F2, V-F3, V-F4. -/
theorem test_flag_merge :
    mergeFlags 0xFFFFFFFFFFFFFFFF (afe .add .w8 0x00 0x01).defMask (afe .add .w8 0x00 0x01).setMask = 0xFFFFFFFFFFFFF72A
      ∧ mergeFlags 0xFFFFFFFFFFFFFFFF (afe .and .w8 0xFF 0x01).defMask (afe .and .w8 0xFF 0x01).setMask = 0xFFFFFFFFFFFFF73A
      ∧ mergeFlags 0x0000000000000000 (afe .and .w8 0xFF 0x01).defMask (afe .and .w8 0xFF 0x01).setMask = 0x0000000000000000
      ∧ mergeFlags 0xFFFFFFFFFFFFFFFF (afe .shl .w8 0x01 0x08).defMask (afe .shl .w8 0x01 0x08).setMask = 0xFFFFFFFFFFFFFF7F := by decide

/-! ## One step: vectors of 95_test_vectors.md section 1 and 96_test_vectors_instructions.md -/

/-- V-SRC1. -/
theorem test_V_SRC1 : gives (S [] 0x8D5 [])
    (.make 0x00020000 0x00000040 0x0 0x0000004C 0x0)
    (S [] 0x44 []) = true := by decide

/-- V-SRC3. -/
theorem test_V_SRC3 : gives (S [(3, 0x3000)] 0x8D5 [(0x3000, 0x01), (0x3001, 0x00), (0x3002, 0x00), (0x3003, 0x00), (0x3004, 0x00), (0x3005, 0x00), (0x3006, 0x00), (0x3007, 0x00)])
    (.make 0x00020700 0x00000200 0x0 0x0000040D 0x0)
    (S [(0, 0x1), (3, 0x3000)] 0x0 [(0x3000, 0x01), (0x3001, 0x00), (0x3002, 0x00), (0x3003, 0x00), (0x3004, 0x00), (0x3005, 0x00), (0x3006, 0x00), (0x3007, 0x00)]) = true := by decide

/-- V-SRC6. -/
theorem test_V_SRC6 : gives (S [(0, 0x1), (3, 0x1000)] 0x0 [(0xFFF, 0x7F)])
    (.make 0x00020000 0x0000040D 0xFFFFFFFFFFFFFFFF 0x00000040 0x0)
    (S [(0, 0x1), (3, 0x1000)] 0x890 [(0xFFF, 0x80)]) = true := by decide

/-- V-G1. -/
theorem test_V_G1 : gives (S [(0, 0xFFFFFFFFFFFFFFFF), (3, 0x1)] 0x0 [])
    (.make 0x00020000 0x00000040 0x0 0x0000004C 0x0)
    (S [(0, 0xFFFFFFFFFFFFFF00), (3, 0x1)] 0x55 []) = true := by decide

/-- V-G3. -/
theorem test_V_G3 : gives (S [(0, 0xFFFFFFFFFFFFFFFF), (3, 0x1)] 0x0 [])
    (.make 0x00020200 0x00000100 0x0 0x0000010C 0x0)
    (S [(3, 0x1)] 0x55 []) = true := by decide

/-- V-G5. -/
theorem test_V_G5 : gives (S [(0, 0xFFFFFFFF00000005)] 0x0 [])
    (.make 0x00021207 0x00000100 0x0 0x00000042 0x5)
    (S [(0, 0xFFFFFFFF00000005)] 0x44 []) = true := by decide

/-- V-G6. -/
theorem test_V_G6 : gives (S [(0, 0xFFFFFFFF00000005)] 0x11 [])
    (.make 0x00020A14 0x00000100 0x0 0x00000042 0x20)
    (S [(0, 0x5)] 0x11 []) = true := by decide

/-- V-G7. -/
theorem test_V_G7 : gives (S [(1, 0x104)] 0x0 [])
    (.make 0x00020414 0x00000044 0x0 0x00000044 0x0)
    (S [(1, 0x140)] 0x0 []) = true := by decide

/-- V-G8. -/
theorem test_V_G8 : gives (S [(9, 0x8000000000000000)] 0x0 [])
    (.make 0x00020700 0x00000224 0x0 0x00000224 0x0)
    (S [] 0x845 []) = true := by decide

/-- V-I1. -/
theorem test_V_I1 : gives (S [(0, 0x100000000)] 0x0 [])
    (.make 0x00021300 0x00000200 0x0 0x00000042 0xFF)
    (S [(0, 0xFFFFFFFF)] 0x5 []) = true := by decide

/-- V-I2. -/
theorem test_V_I2 : gives (S [(0, 0x100000000)] 0x0 [])
    (.make 0x00020B00 0x00000200 0x0 0x00000102 0x80000000)
    (S [(0, 0x80000000)] 0x5 []) = true := by decide

/-- V-I4. -/
theorem test_V_I4 : gives (S [(2, 0x1234)] 0x0 [])
    (.make 0x00021104 0x00000088 0x0 0x00000042 0xF0)
    (S [(2, 0x1230)] 0x4 []) = true := by decide

/-- V-I6. -/
theorem test_V_I6 : gives (S [] 0x0 [])
    (.make 0x00020805 0x00000040 0x0 0x00000042 0x1)
    (S [(0, 0xFF)] 0x95 []) = true := by decide

/-- V-M1. -/
theorem test_V_M1 : gives (S [(0, 0x2), (3, 0x4000), (6, 0x5)] 0x0 [(0x4024, 0x00), (0x4025, 0x00), (0x4026, 0x00), (0x4027, 0x00), (0x4028, 0xFF), (0x4029, 0xFF), (0x402A, 0xFF), (0x402B, 0xFF), (0x402C, 0x00), (0x402D, 0x00), (0x402E, 0x00), (0x402F, 0x00)])
    (.make 0x00020200 0x00036C0D 0x0 0x00000100 0x0)
    (S [(0, 0x2), (3, 0x4000), (6, 0x5)] 0x11 [(0x4024, 0x00), (0x4025, 0x00), (0x4026, 0x00), (0x4027, 0x00), (0x4028, 0x01), (0x4029, 0x00), (0x402A, 0x00), (0x402B, 0x00), (0x402C, 0x00), (0x402D, 0x00), (0x402E, 0x00), (0x402F, 0x00)]) = true := by decide

/-- V-M2. -/
theorem test_V_M2 : gives (S [] 0x0 [(0x4000, 0x11), (0x4001, 0x22), (0x4002, 0x33), (0x4003, 0x44), (0x4004, 0x55), (0x4005, 0x66), (0x4006, 0x77), (0x4007, 0x88)])
    (.make 0x00020501 0x00000080 0x0 0x00000001 0x4003)
    (S [(0, 0x5544)] 0x4 [(0x4000, 0x11), (0x4001, 0x22), (0x4002, 0x33), (0x4003, 0x44), (0x4004, 0x55), (0x4005, 0x66), (0x4006, 0x77), (0x4007, 0x88)]) = true := by decide

/-- V-M3. -/
theorem test_V_M3 : gives (S [(1, 0x44)] 0x0 [(0x5000, 0xF0), (0x5001, 0x00), (0x5002, 0x00), (0x5003, 0x00), (0x5004, 0x00), (0x5005, 0x00), (0x5006, 0x00), (0x5007, 0x00)])
    (.make 0x00020714 0x00000001 0x5000 0x00000044 0x0)
    (S [(1, 0x44)] 0x4 [(0x5000, 0x00), (0x5001, 0x0F), (0x5002, 0x00), (0x5003, 0x00), (0x5004, 0x00), (0x5005, 0x00), (0x5006, 0x00), (0x5007, 0x00)]) = true := by decide

/-- V-M4. -/
theorem test_V_M4 : gives (S [(5, 0x6000)] 0x1 [(0x6000, 0x10)])
    (.make 0x00020C07 0x00000415 0x0 0x00000042 0x10)
    (S [(5, 0x6000)] 0x44 [(0x6000, 0x10)]) = true := by decide

/-- V-M5. -/
theorem test_V_M5 : gives (S [(7, 0xFFFFFFFFFFFFFFF8)] 0x0 [(0xFFFFFFFFFFFFFFF8,1),(0xFFFFFFFFFFFFFFF9,0),(0xFFFFFFFFFFFFFFFA,0),(0xFFFFFFFFFFFFFFFB,0),(0xFFFFFFFFFFFFFFFC,0),(0xFFFFFFFFFFFFFFFD,0),(0xFFFFFFFFFFFFFFFE,0),(0xFFFFFFFFFFFFFFFF,0)])
    (.make 0x00020700 0x00000200 0x0 0x0000041D 0x0)
    (S [(0, 0x1), (7, 0xFFFFFFFFFFFFFFF8)] 0x0 [(0xFFFFFFFFFFFFFFF8,1),(0xFFFFFFFFFFFFFFF9,0),(0xFFFFFFFFFFFFFFFA,0),(0xFFFFFFFFFFFFFFFB,0),(0xFFFFFFFFFFFFFFFC,0),(0xFFFFFFFFFFFFFFFD,0),(0xFFFFFFFFFFFFFFFE,0),(0xFFFFFFFFFFFFFFFF,0)]) = true := by decide

/-- V-M6. -/
theorem test_V_M6 : raises (S [(7, 0xFFFFFFFFFFFFFFFC)] 0x0 [(0,0),(1,0),(2,0),(3,0),(4,0),(5,0),(6,0),(7,0),(0xFFFFFFFFFFFFFFFC,0),(0xFFFFFFFFFFFFFFFD,0),(0xFFFFFFFFFFFFFFFE,0),(0xFFFFFFFFFFFFFFFF,0)])
    (.make 0x00020700 0x00000200 0x0 0x0000041D 0x0)
    (.uninitializedAccess 0xFFFFFFFFFFFFFFFC 8 .read) = true := by decide

/-- V-M7. -/
theorem test_V_M7 : gives (S [(3, 0xFFFFFFFFFFFFFFFF), (6, 0x8000000000000002)] 0x0 [(0x10, 0x07), (0x11, 0x00), (0x12, 0x00), (0x13, 0x00), (0x14, 0x00), (0x15, 0x00), (0x16, 0x00), (0x17, 0x00)])
    (.make 0x00020700 0x00000200 0x0 0x00036C0D 0x1)
    (S [(0, 0x7), (3, 0xFFFFFFFFFFFFFFFF), (6, 0x8000000000000002)] 0x0 [(0x10, 0x07), (0x11, 0x00), (0x12, 0x00), (0x13, 0x00), (0x14, 0x00), (0x15, 0x00), (0x16, 0x00), (0x17, 0x00)]) = true := by decide

/-- V-S1. -/
theorem test_V_S1 : gives (S [(0, 0x1122334455667788), (4, 0x2000)] 0x8D5 [(0x1FF0, 0x00), (0x1FF1, 0x00), (0x1FF2, 0x00), (0x1FF3, 0x00), (0x1FF4, 0x00), (0x1FF5, 0x00), (0x1FF6, 0x00), (0x1FF7, 0x00), (0x1FF8, 0x00), (0x1FF9, 0x00), (0x1FFA, 0x00), (0x1FFB, 0x00), (0x1FFC, 0x00), (0x1FFD, 0x00), (0x1FFE, 0x00), (0x1FFF, 0x00)])
    (.make 0x00010320 0x00000200 0x0 0x00000000 0x0)
    (S [(0, 0x1122334455667788), (4, 0x1FF8)] 0x8D5 [(0x1FF0, 0x00), (0x1FF1, 0x00), (0x1FF2, 0x00), (0x1FF3, 0x00), (0x1FF4, 0x00), (0x1FF5, 0x00), (0x1FF6, 0x00), (0x1FF7, 0x00), (0x1FF8, 0x88), (0x1FF9, 0x77), (0x1FFA, 0x66), (0x1FFB, 0x55), (0x1FFC, 0x44), (0x1FFD, 0x33), (0x1FFE, 0x22), (0x1FFF, 0x11)]) = true := by decide

/-- V-S2. -/
theorem test_V_S2 : gives (S [(3, 0xFFFFFFFFFFFFFFFF), (4, 0x1FF8)] 0x0 [(0x1FF0, 0x00), (0x1FF1, 0x00), (0x1FF2, 0x00), (0x1FF3, 0x00), (0x1FF4, 0x00), (0x1FF5, 0x00), (0x1FF6, 0x00), (0x1FF7, 0x00), (0x1FF8, 0x88), (0x1FF9, 0x77), (0x1FFA, 0x66), (0x1FFB, 0x55), (0x1FFC, 0x44), (0x1FFD, 0x33), (0x1FFE, 0x22), (0x1FFF, 0x11)])
    (.make 0x00010321 0x0000020C 0x0 0x00000000 0x0)
    (S [(3, 0x1122334455667788), (4, 0x2000)] 0x0 [(0x1FF0, 0x00), (0x1FF1, 0x00), (0x1FF2, 0x00), (0x1FF3, 0x00), (0x1FF4, 0x00), (0x1FF5, 0x00), (0x1FF6, 0x00), (0x1FF7, 0x00), (0x1FF8, 0x88), (0x1FF9, 0x77), (0x1FFA, 0x66), (0x1FFB, 0x55), (0x1FFC, 0x44), (0x1FFD, 0x33), (0x1FFE, 0x22), (0x1FFF, 0x11)]) = true := by decide

/-- V-S3. -/
theorem test_V_S3 : gives (S [(0, 0x1122334455667788), (4, 0x2000)] 0x0 [(0x1FF0, 0x00), (0x1FF1, 0x00), (0x1FF2, 0x00), (0x1FF3, 0x00), (0x1FF4, 0x00), (0x1FF5, 0x00), (0x1FF6, 0x00), (0x1FF7, 0x00), (0x1FF8, 0x00), (0x1FF9, 0x00), (0x1FFA, 0x00), (0x1FFB, 0x00), (0x1FFC, 0x00), (0x1FFD, 0x00), (0x1FFE, 0x00), (0x1FFF, 0x00)])
    (.make 0x00010120 0x00000080 0x0 0x00000000 0x0)
    (S [(0, 0x1122334455667788), (4, 0x1FFE)] 0x0 [(0x1FF0, 0x00), (0x1FF1, 0x00), (0x1FF2, 0x00), (0x1FF3, 0x00), (0x1FF4, 0x00), (0x1FF5, 0x00), (0x1FF6, 0x00), (0x1FF7, 0x00), (0x1FF8, 0x00), (0x1FF9, 0x00), (0x1FFA, 0x00), (0x1FFB, 0x00), (0x1FFC, 0x00), (0x1FFD, 0x00), (0x1FFE, 0x88), (0x1FFF, 0x77)]) = true := by decide

/-- V-S4. -/
theorem test_V_S4 : gives (S [(2, 0xAAAAAAAAAAAAAAAA), (4, 0x1FFE)] 0x0 [(0x1FF0, 0x00), (0x1FF1, 0x00), (0x1FF2, 0x00), (0x1FF3, 0x00), (0x1FF4, 0x00), (0x1FF5, 0x00), (0x1FF6, 0x00), (0x1FF7, 0x00), (0x1FF8, 0x00), (0x1FF9, 0x00), (0x1FFA, 0x00), (0x1FFB, 0x00), (0x1FFC, 0x00), (0x1FFD, 0x00), (0x1FFE, 0xEF), (0x1FFF, 0xBE)])
    (.make 0x00010121 0x00000088 0x0 0x00000000 0x0)
    (S [(2, 0xAAAAAAAAAAAABEEF), (4, 0x2000)] 0x0 [(0x1FF0, 0x00), (0x1FF1, 0x00), (0x1FF2, 0x00), (0x1FF3, 0x00), (0x1FF4, 0x00), (0x1FF5, 0x00), (0x1FF6, 0x00), (0x1FF7, 0x00), (0x1FF8, 0x00), (0x1FF9, 0x00), (0x1FFA, 0x00), (0x1FFB, 0x00), (0x1FFC, 0x00), (0x1FFD, 0x00), (0x1FFE, 0xEF), (0x1FFF, 0xBE)]) = true := by decide

/-- V-S5. -/
theorem test_V_S5 : gives (S [(4, 0x1FF8)] 0x0 [(0x1FF0, 0x00), (0x1FF1, 0x00), (0x1FF2, 0x00), (0x1FF3, 0x00), (0x1FF4, 0x00), (0x1FF5, 0x00), (0x1FF6, 0x00), (0x1FF7, 0x00), (0x1FF8, 0x00), (0x1FF9, 0x70), (0x1FFA, 0x00), (0x1FFB, 0x00), (0x1FFC, 0x00), (0x1FFD, 0x00), (0x1FFE, 0x00), (0x1FFF, 0x00)])
    (.make 0x00010321 0x00000210 0x0 0x00000000 0x0)
    (S [(4, 0x7000)] 0x0 [(0x1FF0, 0x00), (0x1FF1, 0x00), (0x1FF2, 0x00), (0x1FF3, 0x00), (0x1FF4, 0x00), (0x1FF5, 0x00), (0x1FF6, 0x00), (0x1FF7, 0x00), (0x1FF8, 0x00), (0x1FF9, 0x70), (0x1FFA, 0x00), (0x1FFB, 0x00), (0x1FFC, 0x00), (0x1FFD, 0x00), (0x1FFE, 0x00), (0x1FFF, 0x00)]) = true := by decide

/-- V-S6. -/
theorem test_V_S6 : gives (S [(4, 0x2000)] 0x0 [(0x1FF0, 0x00), (0x1FF1, 0x00), (0x1FF2, 0x00), (0x1FF3, 0x00), (0x1FF4, 0x00), (0x1FF5, 0x00), (0x1FF6, 0x00), (0x1FF7, 0x00), (0x1FF8, 0x00), (0x1FF9, 0x00), (0x1FFA, 0x00), (0x1FFB, 0x00), (0x1FFC, 0x00), (0x1FFD, 0x00), (0x1FFE, 0x00), (0x1FFF, 0x00)])
    (.make 0x00010320 0x00000210 0x0 0x00000000 0x0)
    (S [(4, 0x1FF8)] 0x0 [(0x1FF0, 0x00), (0x1FF1, 0x00), (0x1FF2, 0x00), (0x1FF3, 0x00), (0x1FF4, 0x00), (0x1FF5, 0x00), (0x1FF6, 0x00), (0x1FF7, 0x00), (0x1FF8, 0x00), (0x1FF9, 0x20), (0x1FFA, 0x00), (0x1FFB, 0x00), (0x1FFC, 0x00), (0x1FFD, 0x00), (0x1FFE, 0x00), (0x1FFF, 0x00)]) = true := by decide

/-- V-S7. -/
theorem test_V_S7 : gives (S [(4, 0x100001FFA)] 0x0 [(0x100001FF0, 0x00), (0x100001FF1, 0x00), (0x100001FF2, 0x00), (0x100001FF3, 0x00), (0x100001FF4, 0x00), (0x100001FF5, 0x00), (0x100001FF6, 0x00), (0x100001FF7, 0x00), (0x100001FF8, 0x00), (0x100001FF9, 0x00), (0x100001FFA, 0x34), (0x100001FFB, 0x12), (0x100001FFC, 0x00), (0x100001FFD, 0x00), (0x100001FFE, 0x00), (0x100001FFF, 0x00)])
    (.make 0x00010121 0x00000090 0x0 0x00000000 0x0)
    (S [(4, 0x100001234)] 0x0 [(0x100001FF0, 0x00), (0x100001FF1, 0x00), (0x100001FF2, 0x00), (0x100001FF3, 0x00), (0x100001FF4, 0x00), (0x100001FF5, 0x00), (0x100001FF6, 0x00), (0x100001FF7, 0x00), (0x100001FF8, 0x00), (0x100001FF9, 0x00), (0x100001FFA, 0x34), (0x100001FFB, 0x12), (0x100001FFC, 0x00), (0x100001FFD, 0x00), (0x100001FFE, 0x00), (0x100001FFF, 0x00)]) = true := by decide

/-- V-S8. -/
theorem test_V_S8 : raises (S [(0, 0x55), (4, 0x1FF4)] 0x0 [(0x1FF0, 0x00), (0x1FF1, 0x00), (0x1FF2, 0x00), (0x1FF3, 0x00), (0x1FF4, 0x00), (0x1FF5, 0x00), (0x1FF6, 0x00), (0x1FF7, 0x00)])
    (.make 0x00010320 0x00000200 0x0 0x00000000 0x0)
    (.uninitializedAccess 0x1FEC 8 .write) = true := by decide

/-- V-S9. -/
theorem test_V_S9 : gives (S [(0, 0xABCD)] 0x0 [(0xFFFFFFFFFFFFFFF8,1),(0xFFFFFFFFFFFFFFF9,0),(0xFFFFFFFFFFFFFFFA,0),(0xFFFFFFFFFFFFFFFB,0),(0xFFFFFFFFFFFFFFFC,0),(0xFFFFFFFFFFFFFFFD,0),(0xFFFFFFFFFFFFFFFE,0),(0xFFFFFFFFFFFFFFFF,0)])
    (.make 0x00010320 0x00000200 0x0 0x00000000 0x0)
    (S [(0, 0xABCD), (4, 0xFFFFFFFFFFFFFFF8)] 0x0 [(0xFFFFFFFFFFFFFFF8,0xCD),(0xFFFFFFFFFFFFFFF9,0xAB),(0xFFFFFFFFFFFFFFFA,0),(0xFFFFFFFFFFFFFFFB,0),(0xFFFFFFFFFFFFFFFC,0),(0xFFFFFFFFFFFFFFFD,0),(0xFFFFFFFFFFFFFFFE,0),(0xFFFFFFFFFFFFFFFF,0)]) = true := by decide

/-- V-S10. -/
theorem test_V_S10 : raises (S [(0, 0x12345678), (4, 0x2000)] 0x0 [])
    (.make 0x00010220 0x00000100 0x0 0x00000000 0x0)
    (.defect .stack32Bit ⟨32, 2⟩) = true := by decide

/-- V-S11. -/
theorem test_V_S11 : raises (S [(0, 0x12345678), (4, 0x2000)] 0x0 [])
    (.make 0x00010221 0x00000100 0x0 0x00000000 0x0)
    (.defect .stack32Bit ⟨33, 2⟩) = true := by decide

/-- V-S12. -/
theorem test_V_S12 : raises (S [(0, 0x12345678), (4, 0x2000)] 0x0 [])
    (.make 0x00010720 0x00000401 0x0 0x00000000 0x0)
    (.unimplementedOpcode ⟨0x20, 0x07⟩) = true := by decide

/-- V-S13. -/
theorem test_V_S13 : raises (S [(0, 0x12345678), (4, 0x2000)] 0x0 [])
    (.make 0x00010B20 0x00000042 0x10 0x00000000 0x0)
    (.unimplementedOpcode ⟨0x20, 0x0B⟩) = true := by decide

/-- V-S14. -/
theorem test_V_S14 : raises (S [(0, 0x12345678), (4, 0x2000)] 0x0 [])
    (.make 0x00010B21 0x00000042 0x10 0x00000000 0x0)
    (.defect .unrecognisedVariant ⟨33, 11⟩) = true := by decide

/-- V-E1. -/
theorem test_V_E1 : raises (S [(0, 0x5), (3, 0x9000)] 0x1 [])
    (.make 0x00020700 0x00000200 0x0 0x0000040D 0x0)
    (.uninitializedAccess 0x9000 8 .read) = true := by decide

/-- V-E2. -/
theorem test_V_E2 : raises (S [(0, 0x5), (3, 0x9000)] 0x1 [])
    (.make 0x00020006 0x0000040D 0x4 0x00000040 0x0)
    (.uninitializedAccess 0x9004 1 .read) = true := by decide

/-- V-E3. -/
theorem test_V_E3 : raises (S [(0, 0x5), (3, 0x9000)] 0x1 [])
    (.make 0x00020300 0x00000200 0x0 0x0000020F 0x0)
    (.unsupportedOperandKind 1 ⟨0, 3⟩) = true := by decide

/-- V-E4. -/
theorem test_V_E4 : raises (S [(0, 0x5), (3, 0x9000)] 0x1 [])
    (.make 0x00020300 0x000000C0 0x0 0x0000020C 0x0)
    (.registerWidth 24) = true := by decide

/-- V-E6. -/
theorem test_V_E6 : raises (S [(0, 0x5), (3, 0x9000)] 0x1 [])
    (.make 0x00020F00 0x00000200 0x0 0x000000C2 0x1)
    (.unsupportedOperandKind 1 ⟨0, 15⟩) = true := by decide

/-- V-E7. -/
theorem test_V_E7 : raises (S [(0, 0x5), (3, 0x9000)] 0x1 [])
    (.make 0x00020302 0x00000200 0x0 0x0000020C 0x0)
    (.unimplementedOpcode ⟨0x02, 0x03⟩) = true := by decide

/-- V-E8. -/
theorem test_V_E8 : raises (S [(0, 0x5), (3, 0x9000)] 0x1 [])
    (.make 0x00020390 0x00000200 0x0 0x0000020C 0x0)
    (.unimplementedOpcode ⟨0x90, 0x03⟩) = true := by decide

/-- V-E9. -/
theorem test_V_E9 : raises (S [(0, 0x5), (3, 0x9000)] 0x1 [])
    (.make 0x00021000 0x00000040 0x0 0x00000042 0x1)
    (.defect .unrecognisedVariant ⟨0, 16⟩) = true := by decide

/-- V-E11. -/
theorem test_V_E11 : raises (S [(0, 0x5), (3, 0x9000)] 0x1 [])
    (.make 0x00020C14 0x00000200 0x0 0x00000042 0x1)
    (.defect .unrecognisedVariant ⟨20, 12⟩) = true := by decide

/-- V-E12. -/
theorem test_V_E12 : raises (S [(0, 0x5), (3, 0x9000)] 0x1 [])
    (.make 0x00060390 0x00000200 0x0 0x0000020C 0x0)
    (.defect .reservedBits ⟨144, 3⟩) = true := by decide

/-- V-E15. -/
theorem test_V_E15 : raises (S [(0, 0x5), (3, 0x9000)] 0x1 [])
    (.make 0x00020300 0x00000100 0x0 0x0000020C 0x0)
    (.defect .operandShape ⟨0, 3⟩) = true := by decide

/-- V-E18. -/
theorem test_V_E18 : raises (S [(0, 0x5), (3, 0x9000)] 0x1 [])
    (.make 0x00020B00 0x00000204 0x0 0x00000102 0x1)
    (.defect .operandShape ⟨0, 11⟩) = true := by decide

/-- V-E19. -/
theorem test_V_E19 : raises (S [(0, 0x5), (3, 0x9000)] 0x1 [])
    (.make 0x00020F00 0x00000200 0x0 0x00000042 0x1)
    (.defect .operandShape ⟨0, 15⟩) = true := by decide

/-- V-E20. -/
theorem test_V_E20 : raises (S [(0, 0x5), (3, 0x9000)] 0x1 [])
    (.make 0x00020714 0x00000200 0x0 0x00000048 0x0)
    (.defect .operandShape ⟨20, 7⟩) = true := by decide

/-- V-E21. -/
theorem test_V_E21 : raises (S [(0, 0x5), (3, 0x9000)] 0x1 [])
    (.make 0x00020314 0x00000200 0x0 0x00000042 0x1)
    (.defect .operandCount ⟨20, 3⟩) = true := by decide

/-- V-E23. -/
theorem test_V_E23 : gives (S [(0, 0x3)] 0x0 [])
    (.make 0x00010314 0x00000200 0x0 0xFFFFFFFF 0xFFFFFFFFFFFFFFFF)
    (S [(0, 0x6)] 0x4 []) = true := by decide

/-! ## Witnesses -/

/-- An outcome that a predicate of the next state holds of is a next state. -/
theorem next_of {o : Host.Outcome State Fault Refusal} {p : State → Bool} (h : nextIs o p = true) :
    ∃ t, o = .next t ∧ p t = true := by
  cases o with
  | next t => exact ⟨t, rfl, h⟩
  | fault => cases h
  | refused => cases h

/-- Does the host call answer this value? -/
def answers {α : Type} [DecidableEq α] (v : α) : HostReply α → Bool
  | .ok v' _ => v == v'
  | _ => false

/-- A host call that answers has a state after it. -/
theorem ok_of {α : Type} [DecidableEq α] {o : HostReply α} {v : α} (h : answers v o = true) : ∃ t, o = .ok v t := by
  cases o with
  | ok v' t => exact ⟨t, by rw [eq_of_beq h]⟩
  | error => cases h
  | stuck => cases h
  | refused => cases h

/-- `ADD RAX, RBX`. -/
def addRegs : Instr := .addRm64R64 (F2 (.reg 0 8) (.reg 3 8))
/-- `ADD RAX, [RBX]`. -/
def addFromMem : Instr := .addR64Rm64 (F2 (.reg 0 8) (.mem (some 3) none .x1 0))
/-- `ADD byte ptr [RBX], AL`. -/
def addToMem : Instr := .addRm8R8 (F2 (.mem (some 3) none .x1 0) (.reg 0 1))
/-- RAX and RBX, one initialised byte at 0x80, RSP at its stack. -/
def sA : State := S [(0, 0x80), (3, 0x80), (4, 0x2008)] 0x0855
  [(0x80, 0x80), (0x2000, 1), (0x2001, 2), (0x2002, 3), (0x2003, 4), (0x2004, 5), (0x2005, 6), (0x2006, 7), (0x2007, 8),
   (0x2008, 9), (0x2009, 10), (0x200A, 11), (0x200B, 12), (0x200C, 13), (0x200D, 14), (0x200E, 15), (0x200F, 16)]
/-- A stack pointer with nothing initialised at it. -/
def sLow : State := S [(4, 0)] 0 []
/-- `sA` after a defect. -/
def sAborted : State := sA.raise (.defect .stack32Bit ⟨0x20, 0x02⟩)
/-- A record with a header only. -/
def R (h : BitVec 32) : Record := .make h 0 0 0 0
/-- A record's reserved bits are 0, and its ids. -/
def header (h : BitVec 32) : Bool × OpcodeId := ((R h).hdr.extractLsb' 18 14 == 0, opcodeIdOf (R h).hdr)

theorem witness_DecodeSelectsARowOrRejectsByName :
    header 0x00040000 = (false, ⟨0x00, 0x00⟩) ∧ header 0x00000008 = (true, ⟨0x08, 0x00⟩)
      ∧ header 0x000000FF = (true, ⟨0xFF, 0x00⟩) ∧ header 0x00001307 = (true, ⟨0x07, 0x13⟩)
      ∧ header 0x00001000 = (true, ⟨0x00, 0x10⟩) ∧ header 0x00001400 = (true, ⟨0x00, 0x14⟩)
      ∧ header 0x00000B17 = (true, ⟨0x17, 0x0B⟩) ∧ header 0x00000C17 = (true, ⟨0x17, 0x0C⟩)
      ∧ header 0x00000120 = (true, ⟨0x20, 0x01⟩) ∧ header 0x00000321 = (true, ⟨0x21, 0x03⟩)
      ∧ header 0x00000721 = (true, ⟨0x21, 0x07⟩) ∧ header 0x00000B20 = (true, ⟨0x20, 0x0B⟩)
      ∧ header 0x00000B21 = (true, ⟨0x21, 0x0B⟩) ∧ header 0x00000420 = (true, ⟨0x20, 0x04⟩)
      ∧ header 0x0000FF16 = (true, ⟨0x16, 0xFF⟩) := by decide

/-- Kind 0, kind 1 with a base and no index, kind 2 with one byte, kind 3, each with other unused bits. -/
theorem witness_UnusedDescriptorFieldsAreIgnored :
    ((0x00000200#32).extractLsb' 2 8 = (0xFFFFFE00#32).extractLsb' 2 8 ∧ (0xFFFFFE00#32).extractLsb' 0 2 = 0)
      ∧ ((0x0000040D#32).extractLsb' 0 2 = 1 ∧ (0xFFFCF7CD#32).extractLsb' 0 2 = 1
        ∧ (0x0000040D#32).extractLsb' 10 2 = (0xFFFCF7CD#32).extractLsb' 10 2
        ∧ (0x0000040D#32).extractLsb' 16 2 = (0xFFFCF7CD#32).extractLsb' 16 2
        ∧ (0x0000040D#32).extractLsb' 2 4 = (0xFFFCF7CD#32).extractLsb' 2 4
        ∧ (0x0000040D#32).extractLsb' 11 1 ≠ 1)
      ∧ ((0x00000042#32).extractLsb' 0 2 = 2 ∧ (0xFFFFFC7E#32).extractLsb' 0 2 = 2
        ∧ (0x00000042#32).extractLsb' 6 4 = (0xFFFFFC7E#32).extractLsb' 6 4
        ∧ ((0x00000042#32).extractLsb' 6 4).toNat = Width.w8.bytes
        ∧ (3#64).setWidth Width.w8.bits = (0xAB03#64).setWidth Width.w8.bits)
      ∧ ((3#32).extractLsb' 0 2 = 3 ∧ (0xFFFFFFFF#32).extractLsb' 0 2 = 3) := by decide

theorem witness_EngineCommandSelectsOperationAndWidth :
    (0x02#6).extractLsb' 0 4 ∈ ([2, 3, 10, 11, 14] : List (BitVec 4))
      ∧ (0x3E#6).extractLsb' 0 4 ∈ ([2, 3, 10, 11, 14] : List (BitVec 4)) := by decide

theorem witness_StepRunsTheDecodedInstruction :
    (issue sA (encode addRegs)).status = .running ∧ (issue sA (encode addRegs)).run = .active
      ∧ (issue sA (encode addRegs)).stream = encode addRegs :: [] ∧ decode (encode addRegs) = .ok addRegs := by decide

theorem witness_StepRaisesForARecordWithoutARow :
    ((issue sA (R 0x90)).status = .running ∧ (issue sA (R 0x90)).run = .active
        ∧ (issue sA (R 0x90)).stream = R 0x90 :: [])
      ∧ decode (R 0x90) = .error (.noTable ⟨0x90, 0⟩)
      ∧ decode (R 0x1000) = .error (.unrecognisedVariant ⟨0x00, 0x10⟩)
      ∧ decode (R 0x00040000) = .error (.reservedBits ⟨0x00, 0x00⟩) := by decide

theorem witness_RunLoopAfterEachOutcome :
    sA.raised = none
      ∧ ((sA.raise (.unimplementedOpcode ⟨2, 8⟩)).raised = some (.unimplementedOpcode ⟨2, 8⟩)
        ∧ (sA.raise (.unimplementedOpcode ⟨2, 8⟩)).skipUnimplemented = false)
      ∧ { sA.raise (.unimplementedOpcode ⟨2, 8⟩) with skipUnimplemented := true }.raised
        = some (.unimplementedOpcode ⟨2, 8⟩)
      ∧ ((sA.raise (.registerWidth 24)).raised = some (.registerWidth 24) ∧ (Error.registerWidth 24).code = 3)
      ∧ (Error.uninitializedAccess 0 1 .read).code = 1 ∧ (Error.unsupportedOperandKind 0 ⟨0, 0⟩).code = 2
      ∧ (Error.defect .stack32Bit ⟨0x20, 2⟩).code = 5
      ∧ (sA.raise .normalTermination).raised = some .normalTermination := by decide

theorem witness_EndOfStreamCompletesAndIdlingChangesNothing :
    { sA with run := .active }.status = .running ∧ { sA with run := .active }.stream = [] ∧ sA.run ≠ .active := by
  decide

theorem witness_AbortedInstanceHasNoStep : sAborted.status = .aborted := by decide

theorem witness_RunningInstanceAlwaysSteps : sA.status = .running := by decide

theorem witness_EveryRunOfAFiniteStreamEnds :
    (issue sA (encode addRegs)).status = .running ∧ (issue sA (encode addRegs)).run = .active := by decide

theorem witness_StepKeepsConsistent :
    Consistent (issue sA (R 0x220)) ∧ ∃ t, step (issue sA (R 0x220)) = .next t ∧ (t.status == .aborted) = true := by
  refine ⟨⟨by decide, ?_, ?_, ?_⟩, next_of (by decide)⟩ <;> simp [issue, sA, S, State.setReg, State.reset]

theorem witness_OnlyInitRegionInitialises :
    sA.mem.wf = true
      ∧ (∃ t, step (issue sA (encode addToMem)) = .next t ∧ (t.raised == none) = true)
      ∧ ∃ t, hostInitRegion 0xFFFFFFFFFFFFFFFF 1 sA = .ok () t :=
  ⟨by decide, next_of (by decide), ok_of (by decide)⟩

/-- The other host calls; writing and starting are in the witnesses of `OtherFlagBitsNeverChange`. -/
theorem witness_OnlyInitRegionInitialises_reads :
    (∃ t, hostMemRead 0x80 1 sA = .ok 0x80 t) ∧ (∃ t, hostRegRead 0 8 sA = .ok 0x80 t)
      ∧ ∃ t, hostReadFlags sA = .ok 0x855 t :=
  ⟨ok_of (by decide), ok_of (by decide), ok_of (by decide)⟩

theorem witness_OtherFlagBitsNeverChange :
    (∃ t, step (issue sA (encode addRegs)) = .next t ∧ (t.flags != sA.flags) = true)
      ∧ ∃ t, exec addRegs sA = .next t ∧ (t.flags != sA.flags) = true :=
  ⟨next_of (by decide), next_of (by decide)⟩

theorem witness_OtherFlagBitsNeverChange_memory :
    (∃ t, hostMemWrite 0x80 1 7 sA = .ok () t) ∧ ∃ t, hostInitRegion 0x90 8 sA = .ok () t :=
  ⟨ok_of (by decide), ok_of (by decide)⟩

theorem witness_OtherFlagBitsNeverChange_registers :
    (∃ t, hostRegWrite 0 64 7 sA = .ok () t) ∧ ∃ t, hostWriteFlags 0xFFFFFFFFFFFFFFFF sA = .ok () t :=
  ⟨ok_of (by decide), ok_of (by decide)⟩

theorem witness_OtherFlagBitsNeverChange_reads :
    (∃ t, hostMemRead 0x80 1 sA = .ok 0x80 t) ∧ (∃ t, hostRegRead 0 8 sA = .ok 0x80 t)
      ∧ ∃ t, hostReadFlags sA = .ok 0x855 t :=
  witness_OnlyInitRegionInitialises_reads

theorem witness_OtherFlagBitsNeverChange_run :
    (∃ t, hostStartRun [] false false sA = .ok () t)
      ∧ ∃ t, hostResume { sA with run := .stopped 0 (.registerWidth 24) } = .ok () t :=
  ⟨ok_of (by decide), ok_of (by decide)⟩

theorem witness_NoInstructionReadsAFlag :
    (∃ t, exec addRegs sA = .next t ∧ (t.flags != sA.flags) = true)
      ∧ (∃ t, exec (.pushR64 (F1 (.reg 0 8))) sA = .next t ∧ (t.raised == none) = true)
      ∧ (∀ op shape w f, (Instr.pushR64 (F1 (.reg 0 8))).form ≠ .alu2 op shape w f)
      ∧ ∀ op shape w f, (Instr.pushR64 (F1 (.reg 0 8))).form ≠ .shift op shape w f :=
  ⟨next_of (by decide), next_of (by decide), fun _ _ _ _ h => by contradiction, fun _ _ _ _ h => by contradiction⟩

theorem witness_ErrorsLeaveTheInstanceUntouched :
    (∃ t, exec addFromMem sA = .next t ∧ (t.raised == some (.uninitializedAccess 0x80 8 .read)) = true)
      ∧ ∃ t, exec .pushR32 sA = .next t ∧ (t.raised == some (.defect .stack32Bit ⟨0x20, 2⟩)) = true :=
  ⟨next_of (by decide), next_of (by decide)⟩

theorem witness_NoInstructionTouchesTheStreamPosition :
    ∃ t, exec addRegs sA = .next t ∧ (t.raised == none) = true := next_of (by decide)

theorem witness_NoInstructionRaisesNormalTermination :
    ∃ t, exec addFromMem sA = .next t ∧ (t.raised != none) = true := next_of (by decide)

theorem witness_WellFormedInstructionRaisesOnlyUninitializedAccess :
    addFromMem.wellFormed = true ∧ (∀ op v, addFromMem.form ≠ .defect32 op v)
      ∧ (∀ op v, addFromMem.form ≠ .unported op v) ∧ (∀ m v, addFromMem.form ≠ .reserved m v)
      ∧ ∃ t, exec addFromMem sA = .next t ∧ (t.raised == some (.uninitializedAccess 0x80 8 .read)) = true :=
  ⟨by decide, fun _ _ h => by contradiction, fun _ _ h => by contradiction, fun _ _ h => by contradiction, next_of (by decide)⟩

theorem witness_RegisterInstructionsNeverTrap :
    (addRegs.form = .alu2 .add .rmR .w64 (F2 (.reg 0 8) (.reg 3 8)) ∧ addRegs.wellFormed = true
        ∧ sA.status = .running
        ∧ ∀ b j sc disp, (F2 (.reg 0 8) (.reg 3 8)).slot0.desc ≠ .mem b j sc disp
          ∧ (F2 (.reg 0 8) (.reg 3 8)).slot1.desc ≠ .mem b j sc disp)
      ∧ (Instr.shlRm64By1 (F1 (.reg 0 8))).form = .shift .shl .rm1 .w64 (F1 (.reg 0 8))
      ∧ (Instr.shlRm64By1 (F1 (.reg 0 8))).wellFormed = true
      ∧ ∀ b j sc disp, (F1 (.reg 0 8)).slot0.desc ≠ .mem b j sc disp :=
  ⟨⟨rfl, by decide, by decide, fun _ _ _ _ => ⟨nofun, nofun⟩⟩, rfl, by decide, nofun⟩

theorem witness_RegisterWriteReplacesOnlyItsView : (0 : Nat) < 64 ∧ (63 : Nat) < 64 ∧ (1 : RegIdx) ≠ 0 := by decide

theorem witness_NarrowWriteIsSeenByWiderRead :
    Width.w16.bits ≤ Width.w16.bits ∧ Width.w8.bits ≤ Width.w64.bits ∧ 63 < Width.w64.bits := by decide

/-- The last eight bytes of the address space, readable; an access that passes the top; and a hole. -/
theorem witness_MemReadIsLittleEndianOverInitialisedBytes :
    ((0xFFFFFFFFFFFFFFFF : Word).toNat + Width.w8.bytes ≤ 2 ^ 64
        ∧ ∀ a, InSpan 0xFFFFFFFFFFFFFFFF Width.w8.bytes a → (S [] 0 [(0xFFFFFFFFFFFFFFFF, 1)]).mem.isInit a = true)
      ∧ ¬ ((0xFFFFFFFFFFFFFFFF : Word).toNat + Width.w16.bytes ≤ 2 ^ 64)
      ∧ ¬ ∀ a, InSpan 0x80 Width.w16.bytes a → sA.mem.isInit a = true := by
  refine ⟨⟨by decide, fun a h => ?_⟩, by decide, fun h => absurd (h 0x81 ⟨by decide, by decide⟩) (by decide)⟩
  have : a = 0xFFFFFFFFFFFFFFFF := by simp [InSpan, Width.bytes] at h; omega
  subst this
  decide

theorem witness_MemWriteTouchesExactlyItsSpan :
    sA.mem.wf = true ∧ (S [] 0 [(0xFFFFFFFFFFFFFFFF, 1)]).mem.wf = true
      ∧ sA.mem.accessible 0x80 1 = true ∧ sA.mem.accessible 0x80 2 = false
      ∧ (S [] 0 [(0xFFFFFFFFFFFFFFFF, 1)]).mem.accessible 0xFFFFFFFFFFFFFFFF 1 = true := by decide

theorem witness_MixedWidthAccessesAgree :
    sA.mem.wf = true ∧ (∃ t, sA.memWrite 0x2000 .w64 0x1122334455667788 = .ok t)
      ∧ (∃ u, sA.memRead 0x2000 .w64 = .ok u) ∧ ∃ t, sA.memWrite 0x2000 .w8 0xAB = .ok t :=
  ⟨by decide, ⟨_, rfl⟩, ⟨_, rfl⟩, ⟨_, rfl⟩⟩

theorem witness_InitRegionMakesItsRangeValidAndZero :
    sA.mem.wf = true ∧ (0xFFFFFFFFFFFFFFFF : Word).toNat + 1 ≤ 2 ^ 64
      ∧ 2 ^ 64 < (0xFFFFFFFFFFFFFFFF : Word).toNat + 2 := by decide

theorem witness_EffectiveAddressWraps : (S [(3, 0x1000)] 0 []).reg 3 = 0x1000 := by decide

theorem witness_RegisterAndUnknownDescriptorsResolve :
    (0 : BitVec 4) ∉ ([1, 2, 4, 8] : List (BitVec 4)) ∧ (9 : BitVec 4) ∉ ([1, 2, 4, 8] : List (BitVec 4))
      ∧ (15 : BitVec 4) ∉ ([1, 2, 4, 8] : List (BitVec 4)) := by decide

theorem witness_ImmediateSourceIsSignExtended :
    ((1 : BitVec 4).toNat = Width.w8.bytes ∧ Width.w8.bits ≤ Width.w64.bits)
      ∧ ((8 : BitVec 4).toNat = Width.w64.bytes ∧ Width.w64.bits ≤ Width.w64.bits)
      ∧ (3 : BitVec 4) ∉ ([1, 2, 4, 8] : List (BitVec 4)) := by decide

theorem witness_HostRegisterWidthOutOfRange :
    sA.status = .running ∧ (0 : Nat) ∉ [8, 16, 32, 64] ∧ (65 : Nat) ∉ [8, 16, 32, 64] := by decide

theorem witness_FlagMergeWritesExactlyDef :
    (0x0855 : Word) &&& ~~~all6 = 0
      ∧ ∃ t, exec addFromMem sA = .next t ∧ (t.raised != none) = true := ⟨by decide, next_of (by decide)⟩

/-- 0x80 + 0x80 at 8 bits: CF, ZF, PF and OF set (V-SRC2); and a memory destination. -/
theorem witness_AddWritesTheSumAndSixFlags :
    ((Instr.addRm8R8 (F2 (.reg 0 1) (.reg 3 1))).form = .alu2 .add .rmR .w8 (F2 (.reg 0 1) (.reg 3 1))
        ∧ AluOperands .add .rmR .w8 (F2 (.reg 0 1) (.reg 3 1)) sA (.reg 0 .w8) (.reg 3 .w8) 0x80 0x80)
      ∧ (addToMem.form = .alu2 .add .rmR .w8 (F2 (.mem (some 3) none .x1 0) (.reg 0 1))
        ∧ AluOperands .add .rmR .w8 (F2 (.mem (some 3) none .x1 0) (.reg 0 1)) sA (.mem 0x80) (.reg 0 .w8) 0x80 0x80) :=
  ⟨⟨rfl, by decide, by decide, by decide, by decide, by decide, by decide⟩,
    rfl, by decide, by decide, by decide, by decide, by decide, by decide⟩

theorem witness_SubWritesTheDifferenceAndSixFlags :
    (Instr.subRm8Imm8 (F2 (.reg 0 1) (.imm 1 0xFF))).form = .alu2 .sub .rmImm .w8 (F2 (.reg 0 1) (.imm 1 0xFF))
      ∧ AluOperands .sub .rmImm .w8 (F2 (.reg 0 1) (.imm 1 0xFF)) sA (.reg 0 .w8) (.imm 0xFF .w8) 0x80 0xFF :=
  ⟨rfl, by decide, by decide, by decide, by decide, by decide, by decide⟩

theorem witness_CmpWritesOnlyTheFlagsOfTheDifference :
    (Instr.cmpAlImm8 (F2 (.reg 0 1) (.imm 1 0x80))).form = .alu2 .cmp .accImm .w8 (F2 (.reg 0 1) (.imm 1 0x80))
      ∧ AluOperands .cmp .accImm .w8 (F2 (.reg 0 1) (.imm 1 0x80)) sA (.reg 0 .w8) (.imm 0x80 .w8) 0x80 0x80 :=
  ⟨rfl, by decide, by decide, by decide, by decide, by decide, by decide⟩

theorem witness_CmpFlagsOrderTheOperands :
    (Instr.cmpRm64Imm8 (F2 (.reg 0 8) (.imm 1 0x80))).form = .alu2 .cmp .rmImm8 .w64 (F2 (.reg 0 8) (.imm 1 0x80))
      ∧ AluOperands .cmp .rmImm8 .w64 (F2 (.reg 0 8) (.imm 1 0x80)) sA (.reg 0 .w64) (.imm 0x80 .w8) 0x80
        0xFFFFFFFFFFFFFF80 :=
  ⟨rfl, by decide, by decide, by decide, by decide, by decide, by decide⟩

theorem witness_LogicWritesTheResultAndClearsCarryAndOverflow :
    ((Instr.andRm64R64 (F2 (.reg 0 8) (.reg 3 8))).form = .alu2 .and .rmR .w64 (F2 (.reg 0 8) (.reg 3 8))
        ∧ AluOperands .and .rmR .w64 (F2 (.reg 0 8) (.reg 3 8)) sA (.reg 0 .w64) (.reg 3 .w64) 0x80 0x80)
      ∧ ((Instr.orRm64R64 (F2 (.reg 0 8) (.reg 3 8))).form = .alu2 .or .rmR .w64 (F2 (.reg 0 8) (.reg 3 8))
        ∧ AluOperands .or .rmR .w64 (F2 (.reg 0 8) (.reg 3 8)) sA (.reg 0 .w64) (.reg 3 .w64) 0x80 0x80)
      ∧ ((Instr.xorRm64R64 (F2 (.reg 0 8) (.reg 3 8))).form = .alu2 .xor .rmR .w64 (F2 (.reg 0 8) (.reg 3 8))
        ∧ AluOperands .xor .rmR .w64 (F2 (.reg 0 8) (.reg 3 8)) sA (.reg 0 .w64) (.reg 3 .w64) 0x80 0x80) :=
  ⟨⟨rfl, by decide, by decide, by decide, by decide, by decide, by decide⟩,
    ⟨rfl, by decide, by decide, by decide, by decide, by decide, by decide⟩,
    rfl, by decide, by decide, by decide, by decide, by decide, by decide⟩

theorem witness_SameRegisterTwiceUsesTheOldValueForBoth :
    (Instr.addR64Rm64 (F2 (.reg 3 8) (.reg 3 8))).form = .alu2 .add .rRm .w64 (F2 (.reg 3 8) (.reg 3 8))
      ∧ (Instr.addR64Rm64 (F2 (.reg 3 8) (.reg 3 8))).wellFormed = true
      ∧ (Instr.subRm8R8 (F2 (.reg 3 1) (.reg 3 1))).wellFormed = true
      ∧ (Instr.xorRm8R8 (F2 (.reg 3 1) (.reg 3 1))).wellFormed = true
      ∧ (Instr.andRm8R8 (F2 (.reg 3 1) (.reg 3 1))).wellFormed = true
      ∧ (Instr.orRm8R8 (F2 (.reg 3 1) (.reg 3 1))).wellFormed = true
      ∧ (Instr.cmpRm8R8 (F2 (.reg 3 1) (.reg 3 1))).wellFormed = true ∧ sA.status = .running
      ∧ (F2 (.reg 3 8) (.reg 3 8)).slot0.desc = .reg 3 8 ∧ (F2 (.reg 3 8) (.reg 3 8)).slot1.desc = .reg 3 8 :=
  ⟨rfl, by decide, by decide, by decide, by decide, by decide, by decide, by decide, rfl, rfl⟩

theorem witness_ShiftCountIsOneClOrTheByte :
    (Form.shift .shl .rm1 .w64 (F1 (.reg 0 8))).wellFormed = true
      ∧ (Form.shift .shl .rmCl .w64 (F2 (.reg 0 8) (.reg 1 1))).wellFormed = true
      ∧ (Form.shift .shl .rmImm8 .w64 (F2 (.reg 0 8) (.imm 1 3))).wellFormed = true := by decide

/-- AL = 0x81 and CL. -/
def sCl (cl : Word) : State := S [(0, 0xFFFFFFFF00000081), (1, cl)] 0 []

/-- Count 0 and 32 at 8 bits (CL), and 64 at 64 bits (the byte). -/
theorem witness_ZeroCountWritesBackAndKeepsFlags :
    ((Instr.rolRm8Cl (F2 (.reg 0 1) (.reg 1 1))).form = .shift .rol .rmCl .w8 (F2 (.reg 0 1) (.reg 1 1))
        ∧ ShiftOperands .rol .rmCl .w8 (F2 (.reg 0 1) (.reg 1 1)) (sCl 0x20) (.reg 0 .w8) 0x81 0x20
        ∧ effectiveCount .w8 0x20 = 0)
      ∧ ((Instr.shlRm32Imm8 (F2 (.reg 0 4) (.imm 1 0x20))).form
          = .shift .shl .rmImm8 .w32 (F2 (.reg 0 4) (.imm 1 0x20))
        ∧ ShiftOperands .shl .rmImm8 .w32 (F2 (.reg 0 4) (.imm 1 0x20)) (sCl 0) (.reg 0 .w32) 0x81 0x20
        ∧ effectiveCount .w32 0x20 = 0) :=
  ⟨⟨rfl, ⟨by decide, by decide, by decide, by decide⟩, by decide⟩,
    rfl, ⟨by decide, by decide, by decide, by decide⟩, by decide⟩

/-- Counts 1 (`rm_1`), 7, 8 and 9 (CL): below, at and above the width. -/
theorem witness_ShlShiftsLeft :
    ((Instr.shlRm8By1 (F1 (.reg 0 1))).form = .shift .shl .rm1 .w8 (F1 (.reg 0 1))
        ∧ ShiftOperands .shl .rm1 .w8 (F1 (.reg 0 1)) (sCl 0) (.reg 0 .w8) 0x81 1 ∧ 1 = effectiveCount .w8 1)
      ∧ ((Instr.shlRm8Cl (F2 (.reg 0 1) (.reg 1 1))).form = .shift .shl .rmCl .w8 (F2 (.reg 0 1) (.reg 1 1))
        ∧ ShiftOperands .shl .rmCl .w8 (F2 (.reg 0 1) (.reg 1 1)) (sCl 7) (.reg 0 .w8) 0x81 7
        ∧ ShiftOperands .shl .rmCl .w8 (F2 (.reg 0 1) (.reg 1 1)) (sCl 8) (.reg 0 .w8) 0x81 8
        ∧ 7 = effectiveCount .w8 7 ∧ 8 = effectiveCount .w8 8) :=
  ⟨⟨rfl, ⟨by decide, by decide, by decide, by decide⟩, by decide⟩, rfl, ⟨by decide, by decide, by decide, by decide⟩,
    ⟨by decide, by decide, by decide, by decide⟩, by decide, by decide⟩

theorem witness_ShrShiftsRightWithZeros :
    ((Instr.shrRm8By1 (F1 (.reg 0 1))).form = .shift .shr .rm1 .w8 (F1 (.reg 0 1))
        ∧ ShiftOperands .shr .rm1 .w8 (F1 (.reg 0 1)) (sCl 0) (.reg 0 .w8) 0x81 1 ∧ 1 = effectiveCount .w8 1)
      ∧ ((Instr.shrRm8Cl (F2 (.reg 0 1) (.reg 1 1))).form = .shift .shr .rmCl .w8 (F2 (.reg 0 1) (.reg 1 1))
        ∧ ShiftOperands .shr .rmCl .w8 (F2 (.reg 0 1) (.reg 1 1)) (sCl 7) (.reg 0 .w8) 0x81 7
        ∧ ShiftOperands .shr .rmCl .w8 (F2 (.reg 0 1) (.reg 1 1)) (sCl 8) (.reg 0 .w8) 0x81 8
        ∧ 7 = effectiveCount .w8 7 ∧ 8 = effectiveCount .w8 8) :=
  ⟨⟨rfl, ⟨by decide, by decide, by decide, by decide⟩, by decide⟩, rfl, ⟨by decide, by decide, by decide, by decide⟩,
    ⟨by decide, by decide, by decide, by decide⟩, by decide, by decide⟩

theorem witness_SarShiftsRightWithTheSign :
    ((Instr.sarRm8By1 (F1 (.reg 0 1))).form = .shift .sar .rm1 .w8 (F1 (.reg 0 1))
        ∧ ShiftOperands .sar .rm1 .w8 (F1 (.reg 0 1)) (sCl 0) (.reg 0 .w8) 0x81 1 ∧ 1 = effectiveCount .w8 1)
      ∧ ((Instr.sarRm8Cl (F2 (.reg 0 1) (.reg 1 1))).form = .shift .sar .rmCl .w8 (F2 (.reg 0 1) (.reg 1 1))
        ∧ ShiftOperands .sar .rmCl .w8 (F2 (.reg 0 1) (.reg 1 1)) (sCl 7) (.reg 0 .w8) 0x81 7
        ∧ ShiftOperands .sar .rmCl .w8 (F2 (.reg 0 1) (.reg 1 1)) (sCl 8) (.reg 0 .w8) 0x81 8
        ∧ 7 = effectiveCount .w8 7 ∧ 8 = effectiveCount .w8 8) :=
  ⟨⟨rfl, ⟨by decide, by decide, by decide, by decide⟩, by decide⟩, rfl, ⟨by decide, by decide, by decide, by decide⟩,
    ⟨by decide, by decide, by decide, by decide⟩, by decide, by decide⟩

/-- Counts 1 and 8: a whole turn of 8 bits. -/
theorem witness_RolRotatesLeft :
    ((Instr.rolRm8By1 (F1 (.reg 0 1))).form = .shift .rol .rm1 .w8 (F1 (.reg 0 1))
        ∧ ShiftOperands .rol .rm1 .w8 (F1 (.reg 0 1)) (sCl 0) (.reg 0 .w8) 0x81 1 ∧ 1 = effectiveCount .w8 1)
      ∧ ((Instr.rolRm8Cl (F2 (.reg 0 1) (.reg 1 1))).form = .shift .rol .rmCl .w8 (F2 (.reg 0 1) (.reg 1 1))
        ∧ ShiftOperands .rol .rmCl .w8 (F2 (.reg 0 1) (.reg 1 1)) (sCl 8) (.reg 0 .w8) 0x81 8
        ∧ 8 = effectiveCount .w8 8) :=
  ⟨⟨rfl, ⟨by decide, by decide, by decide, by decide⟩, by decide⟩, rfl, ⟨by decide, by decide, by decide, by decide⟩,
    by decide⟩

theorem witness_RorRotatesRight :
    ((Instr.rorRm8By1 (F1 (.reg 0 1))).form = .shift .ror .rm1 .w8 (F1 (.reg 0 1))
        ∧ ShiftOperands .ror .rm1 .w8 (F1 (.reg 0 1)) (sCl 0) (.reg 0 .w8) 0x81 1 ∧ 1 = effectiveCount .w8 1)
      ∧ ((Instr.rorRm8Cl (F2 (.reg 0 1) (.reg 1 1))).form = .shift .ror .rmCl .w8 (F2 (.reg 0 1) (.reg 1 1))
        ∧ ShiftOperands .ror .rmCl .w8 (F2 (.reg 0 1) (.reg 1 1)) (sCl 8) (.reg 0 .w8) 0x81 8
        ∧ 8 = effectiveCount .w8 8) :=
  ⟨⟨rfl, ⟨by decide, by decide, by decide, by decide⟩, by decide⟩, rfl, ⟨by decide, by decide, by decide, by decide⟩,
    by decide⟩

theorem witness_PushStoresTheOldValueAtTheNewStackPointer :
    ((Instr.pushR64 (F1 (.reg 4 8))).form = .push .w64 (F1 (.reg 4 8))
        ∧ StackOperand (.push .w64 (F1 (.reg 4 8))) (F1 (.reg 4 8)) sA 4
        ∧ sA.mem.wf = true ∧ sA.mem.accessible (sA.pushAddress .w64) Width.w64.bytes = true)
      ∧ ((Instr.pushR16 (F1 (.reg 0 2))).form = .push .w16 (F1 (.reg 0 2))
        ∧ StackOperand (.push .w16 (F1 (.reg 0 2))) (F1 (.reg 0 2)) sA 0
        ∧ sA.mem.accessible (sA.pushAddress .w16) Width.w16.bytes = true) :=
  ⟨⟨rfl, ⟨by decide, by decide, _, rfl⟩, by decide, by decide⟩, rfl, ⟨by decide, by decide, _, rfl⟩, by decide⟩

theorem witness_PopReadsAtTheOldStackPointer :
    ((Instr.popR64 (F1 (.reg 4 8))).form = .pop .w64 (F1 (.reg 4 8))
        ∧ StackOperand (.pop .w64 (F1 (.reg 4 8))) (F1 (.reg 4 8)) sA 4
        ∧ sA.memRead (sA.reg .rsp) .w64 = .ok 0x100F0E0D0C0B0A09)
      ∧ ((Instr.popR16 (F1 (.reg 3 2))).form = .pop .w16 (F1 (.reg 3 2))
        ∧ StackOperand (.pop .w16 (F1 (.reg 3 2))) (F1 (.reg 3 2)) sA 3
        ∧ sA.memRead (sA.reg .rsp) .w16 = .ok 0x0A09) :=
  ⟨⟨rfl, ⟨by decide, by decide, _, rfl⟩, by decide⟩, rfl, ⟨by decide, by decide, _, rfl⟩, by decide⟩

theorem witness_PushAndPopAreAtomic :
    (Instr.pushR64 (F1 (.reg 0 8))).form = .push .w64 (F1 (.reg 0 8))
      ∧ (Instr.popR64 (F1 (.reg 0 8))).form = .pop .w64 (F1 (.reg 0 8))
      ∧ (∃ t, exec (.pushR64 (F1 (.reg 0 8))) sLow = .next t ∧ (t.raised != none) = true)
      ∧ (∃ t, exec (.pushR64 (F1 (.reg 0 8))) sA = .next t ∧ (t.raised == none) = true)
      ∧ (∃ t, exec (.popR64 (F1 (.reg 0 8))) sLow = .next t ∧ (t.raised != none) = true)
      ∧ ∃ t, exec (.popR64 (F1 (.reg 0 8))) sA = .next t ∧ (t.raised == none) = true :=
  ⟨rfl, rfl, next_of (by decide), next_of (by decide), next_of (by decide), next_of (by decide)⟩

theorem witness_ThirtyTwoBitStackFormsAreDefects :
    Instr.pushR32.form = .defect32 .push 0x02 ∧ Instr.popImmOpsize32.form = .defect32 .pop 0x0A
      ∧ sA.status = .running := by decide

theorem witness_UnportedAndReservedRowsAreUnimplemented :
    sA.status = .running ∧ Instr.pushImmOpsize64.form = .unported .push 0x0B
      ∧ (Instr.sal 0xFF).form = .reserved 0x16 0xFF := by decide

/-- A register destination, a memory destination, and CMP. -/
theorem witness_TwoOperandInstructionFrame :
    (addRegs.form = .alu2 .add .rmR .w64 (F2 (.reg 0 8) (.reg 3 8))
        ∧ (∃ t, exec addRegs sA = .next t ∧ (t.raised == none) = true) ∧ sA.mem.wf = true
        ∧ sA.resolve (aluId .add .rmR .w64) 0 (.reg 0 8) = .ok (.reg 0 .w64))
      ∧ ((∃ t, exec addToMem sA = .next t ∧ (t.raised == none) = true)
        ∧ sA.resolve (aluId .add .rmR .w8) 0 (.mem (some 3) none .x1 0) = .ok (.mem 0x80))
      ∧ ∃ t, exec (.cmpRm64R64 (F2 (.reg 0 8) (.reg 3 8))) sA = .next t ∧ (t.raised == none) = true :=
  ⟨⟨rfl, next_of (by decide), by decide, by decide⟩, ⟨next_of (by decide), by decide⟩, next_of (by decide)⟩

theorem witness_ShiftInstructionFrame :
    ((Instr.rolRm64By1 (F1 (.reg 0 8))).form = .shift .rol .rm1 .w64 (F1 (.reg 0 8))
        ∧ (∃ t, exec (.rolRm64By1 (F1 (.reg 0 8))) sA = .next t ∧ (t.raised == none) = true) ∧ sA.mem.wf = true
        ∧ sA.resolve (shiftId .rol .rm1 .w64) 0 (.reg 0 8) = .ok (.reg 0 .w64))
      ∧ (∃ t, exec (.shlRm8By1 (F1 (.mem (some 3) none .x1 0))) sA = .next t ∧ (t.raised == none) = true)
      ∧ sA.resolve (shiftId .shl .rm1 .w8) 0 (.mem (some 3) none .x1 0) = .ok (.mem 0x80) :=
  ⟨⟨rfl, next_of (by decide), by decide, by decide⟩, next_of (by decide), by decide⟩

theorem witness_TwoOperandErrorsComeInOrder :
    (Instr.addR64Rm64 (F2 (.reg 0 8) (.reg 3 8))).form = .alu2 .add .rRm .w64 (F2 (.reg 0 8) (.reg 3 8))
      ∧ sA.status = .running ∧ (F1 (.reg 0 8)).opcount ≠ 2
      ∧ ((F2 (.reg 0 8) (.reg 3 8)).opcount = 2 ∧ (F2 (.reg 0 8) (.reg 3 8)).slot0.reserved = 0
        ∧ (F2 (.reg 0 8) (.reg 3 8)).slot1.reserved = 0)
      ∧ (Slot.mk 1 (.reg 3 8)).reserved ≠ 0
      ∧ sA.resolve (aluId .add .rRm .w64) 0 (.reg 0 3) = .error (.registerWidth 24)
      ∧ sA.resolve (aluId .add .rRm .w64) 0 (.reg 0 8) = .ok (.reg 0 .w64)
      ∧ sA.resolve (aluId .add .rRm .w64) 1 .unrecognised
        = .error (.unsupportedOperandKind 1 (aluId .add .rRm .w64))
      ∧ sA.resolve (aluId .add .rRm .w64) 1 (.mem (some 3) none .x1 0) = .ok (.mem 0x80)
      ∧ fits2 .rRm .w64 (.reg 0 .w64) (.reg 3 .w32) = false
      ∧ fits2 .rRm .w64 (.reg 0 .w64) (.mem 0x80) = true ∧ fits2 .rmR .w64 (.mem 0x80) (.reg 0 .w64) = true
      ∧ sA.mem.accessible 0x80 8 = false := by decide

theorem witness_ShiftErrorsComeInOrder :
    (Instr.shlRm64Cl (F2 (.reg 0 8) (.reg 1 1))).form = .shift .shl .rmCl .w64 (F2 (.reg 0 8) (.reg 1 1))
      ∧ sA.status = .running ∧ (F1 (.reg 0 8)).opcount ≠ ShiftShape.rmCl.opcount
      ∧ (F2 (.reg 0 8) (.reg 1 1)).opcount = ShiftShape.rmCl.opcount
      ∧ (Slot.mk 1 (.reg 1 1)).reserved ≠ 0 ∧ ShiftShape.rmCl ≠ .rm1
      ∧ sA.resolve (shiftId .shl .rmCl .w64) 0 (.reg 0 3) = .error (.registerWidth 24)
      ∧ sA.resolve (shiftId .shl .rmCl .w64) 0 (.reg 0 4) = .ok (.reg 0 .w32)
      ∧ Operand.isRegOrMem .w64 (.reg 0 .w32) = false
      ∧ sA.resolve (shiftId .shl .rmCl .w64) 1 .unrecognised
        = .error (.unsupportedOperandKind 1 (shiftId .shl .rmCl .w64))
      ∧ sA.resolve (shiftId .shl .rmCl .w64) 1 (.reg 2 1) = .ok (.reg 2 .w8)
      ∧ Operand.reg 2 .w8 ≠ .reg .rcx .w8
      ∧ (Form.shift .shl .rmCl .w64 (F2 (.mem (some 3) none .x1 0) (.reg 1 1))).wellFormed = true
      ∧ sA.mem.accessible 0x80 8 = false := by decide

theorem witness_StackErrorsComeInOrder :
    (Instr.pushR64 (F1 (.reg 0 8))).form = .push .w64 (F1 (.reg 0 8))
      ∧ (Instr.popR64 (F1 (.reg 0 8))).form = .pop .w64 (F1 (.reg 0 8)) ∧ sLow.status = .running
      ∧ (F2 (.reg 0 8) (.reg 0 8)).opcount ≠ 1 ∧ (F1 (.reg 0 8)).opcount = 1
      ∧ (Slot.mk 1 (.reg 0 8)).reserved ≠ 0 ∧ (F1 (.reg 0 8)).slot0.reserved = 0
      ∧ sLow.resolve (stackId .push .w64) 0 (.reg 0 3) = .error (.registerWidth 24)
      ∧ sLow.resolve (stackId .push .w64) 0 (.mem none none .x1 0) = .ok (.mem 0)
      ∧ sLow.resolve (stackId .push .w64) 0 (.reg 0 8) = .ok (.reg 0 .w64)
      ∧ sLow.mem.accessible (sLow.pushAddress .w64) Width.w64.bytes = false
      ∧ sLow.mem.accessible (sLow.reg .rsp) Width.w64.bytes = false := by decide

end Sys2Proof.Tests.Slice0
end

section
/-! PROOFS. The state (10_state.md): what each host call that answers did, the flags an instruction and a step merge, and
the statements about initialised bytes, FLAGS and register views. -/

namespace Sys2Proof.Machine

variable {s t u : State} {addr v : Word} {n : Nat} {i : RegIdx}

/-! ## What a host call that answers did -/

theorem hostRegRead_ok (h : hostRegRead i n s = .ok v t) : ∃ w, widthOfBits n = some w ∧ v = s.regRead i w ∧ t = s := by
  obtain ⟨-, h⟩ := hostCall_ok h
  split at h
  · cases h; exact ⟨_, ‹_›, rfl, rfl⟩
  · cases h

theorem hostRegWrite_ok (h : hostRegWrite i n v s = .ok () t) :
    ∃ w, widthOfBits n = some w ∧ t = s.regWrite i w v := by
  obtain ⟨-, h⟩ := hostCall_ok h
  split at h
  · cases h; exact ⟨_, ‹_›, rfl⟩
  · cases h

theorem initRegion_ok (h : s.initRegion addr n = .ok t) :
    addr.toNat + n ≤ Config.addressSpace ∧ t = { s with mem := s.mem.zeroFill addr.toNat n } := by
  unfold State.initRegion at h
  split at h
  · cases h; exact ⟨‹_›, rfl⟩
  · cases h

theorem hostInitRegion_ok (h : hostInitRegion addr n s = .ok () t) :
    addr.toNat + n ≤ Config.addressSpace ∧ t = { s with mem := s.mem.zeroFill addr.toNat n } := by
  obtain ⟨-, h⟩ := hostCall_ok h
  split at h
  · cases h; exact initRegion_ok ‹_›
  · cases h

theorem hostMemRead_ok (h : hostMemRead addr n s = .ok v t) :
    ∃ w, n = w.bytes ∧ s.memRead addr w = .ok v ∧ t = s := by
  obtain ⟨-, h⟩ := hostCall_ok h
  split at h
  · cases h
  · split at h
    · cases h; exact ⟨_, widthOfBytes_eq.mp ‹_›, ‹_›, rfl⟩
    · cases h

theorem hostMemWrite_ok (h : hostMemWrite addr n v s = .ok () t) : ∃ w, n = w.bytes ∧ s.memWrite addr w v = .ok t := by
  obtain ⟨-, h⟩ := hostCall_ok h
  split at h
  · cases h
  · split at h
    · cases h; exact ⟨_, widthOfBytes_eq.mp ‹_›, ‹_›⟩
    · cases h

theorem hostReadFlags_ok (h : hostReadFlags s = .ok v t) : v = s.flags ∧ t = s := by
  obtain ⟨-, h⟩ := hostCall_ok h
  cases h; exact ⟨rfl, rfl⟩

theorem hostWriteFlags_ok (h : hostWriteFlags v s = .ok () t) : t = { s with flags := v } := by
  obtain ⟨-, h⟩ := hostCall_ok h
  split at h <;> cases h <;> rfl

theorem hostStartRun_ok {rs : List Record} {skip hosted : Bool} (h : hostStartRun rs skip hosted s = .ok () t) :
    t = { s with stream := rs, index := 0, raised := none, run := .active, skipUnimplemented := skip,
                 hosted := hosted } := by
  obtain ⟨-, h⟩ := hostCall_ok h
  split at h <;> cases h <;> rfl

theorem hostResume_ok (h : hostResume s = .ok () t) : t = { s with raised := none, run := .active } := by
  obtain ⟨-, h⟩ := hostCall_ok h
  split at h <;> cases h
  rfl

/-! ## Which bytes are initialised -/

/-- An initialisation adds exactly its range to the initialised bytes (R52). -/
theorem isInit_zeroFill {m : Memory} {a : Nat} (b : Nat) (h : a + n ≤ Config.addressSpace) (hm : m.wf = true) :
    (m.zeroFill a n).isInit b = true ↔ m.isInit b = true ∨ a ≤ b ∧ b < a + n := by
  rw [Memory.isInit, Memory.isInit, Memory.read_zeroFill b h hm]
  by_cases hb : a ≤ b ∧ b < a + n <;> simp [hb]

theorem isInit_memWrite {w : Width} (hm : s.mem.wf = true) (h : s.memWrite addr w v = .ok t) (a : Nat) :
    t.mem.isInit a = s.mem.isInit a := by
  obtain ⟨hacc, rfl⟩ := memWrite_ok h
  exact (handlerKeeps_write hacc).isInit hm a

/-- The loop's case on an outcome touches no memory. -/
@[simp] theorem afterRecord_mem (rest : List Record) (u : State) : (afterRecord rest u).mem = u.mem := by
  rcases afterRecord_cases rest u with ⟨h, -⟩ | h | ⟨e, -, h⟩ <;> rw [h] <;> rfl

theorem dispatch_isInit {r : Record} (hm : s.mem.wf = true) (h : dispatch r s = .next u) (a : Nat) :
    u.mem.isInit a = s.mem.isInit a := by
  obtain ⟨-, ⟨j, t, -, ht, rfl⟩ | ⟨e, rfl⟩⟩ := dispatch_next h
  · exact (handlerKeeps_formOutcome ht).isInit hm a
  · rfl

/-- A step initialises no byte and uninitialises none. -/
theorem step_isInit (hm : s.mem.wf = true) (h : step s = .next t) (a : Nat) : t.mem.isInit a = s.mem.isInit a := by
  obtain ⟨-, ⟨-, rfl⟩ | ⟨-, -, rfl⟩ | ⟨-, r, rest, u, -, hu, rfl⟩⟩ := step_next h
  · rfl
  · rfl
  · rw [afterRecord_mem, dispatch_isInit hm hu]

/-- Settles O16: step by step through the handlers' frame `HandlerKeeps`, and call by call through what each host call
did. -/
theorem onlyInitRegionInitialises : Obligations.OnlyInitRegionInitialises := by
  intro s t hm
  refine ⟨step_isInit hm, fun addr n h a => ?_, fun addr n v h a => ?_, ?_⟩
  · obtain ⟨hle, rfl⟩ := hostInitRegion_ok h
    exact isInit_zeroFill a hle hm
  · obtain ⟨w, -, hw⟩ := hostMemWrite_ok h
    exact isInit_memWrite hm hw a
  · rintro (⟨_, _, _, h⟩ | ⟨_, _, _, h⟩ | ⟨_, _, _, h⟩ | ⟨_, h⟩ | ⟨_, h⟩ | ⟨_, _, _, h⟩ | h)
    · obtain ⟨_, -, -, rfl⟩ := hostMemRead_ok h; rfl
    · obtain ⟨_, -, -, rfl⟩ := hostRegRead_ok h; rfl
    · obtain ⟨_, -, rfl⟩ := hostRegWrite_ok h; rfl
    · obtain ⟨-, rfl⟩ := hostReadFlags_ok h; rfl
    · rw [hostWriteFlags_ok h]
    · rw [hostStartRun_ok h]
    · rw [hostResume_ok h]

/-! ## Flags: what an instruction and a step merge -/

/-- `act` takes `s` to `t` by merging `d` and `m`, masks inside the six flags, into FLAGS, and does the same whatever
FLAGS holds. -/
structure MergesOnly (act : State → Host.Outcome State Fault Refusal) (s t : State) (d m : Word) : Prop where
  sixDef : SixOnly d
  sixSet : SixOnly m
  flags : t.flags = mergeFlags s.flags d m
  withFlags : ∀ g : Word, act { s with flags := g } = .next { t with flags := mergeFlags g d m }

variable {act : State → Host.Outcome State Fault Refusal} {d m : Word}

/-- Merging nothing: FLAGS stays, whatever it holds. -/
theorem MergesOnly.of_flags_kept (hf : t.flags = s.flags)
    (h : ∀ g : Word, act { s with flags := g } = .next { t with flags := g }) : MergesOnly act s t 0 0 :=
  ⟨sixOnly_zero, sixOnly_zero, by rw [hf]; exact (mergeFlags_zero _).symm, fun g => by
    rw [h g]; exact congrArg (fun x => Host.Outcome.next { t with flags := x }) (mergeFlags_zero g).symm⟩

/-- The bits of FLAGS that are no flag are kept, whatever FLAGS holds. -/
theorem MergesOnly.keepsOther (h : MergesOnly act s t d m) (g : Word) (k : Nat)
    (hk : k ∉ [0, 2, 4, 6, 7, 11]) : (mergeFlags g d m).getLsbD k = g.getLsbD k := by
  rw [getLsbD_mergeFlags, h.sixDef k hk, h.sixSet k hk]
  simp

theorem MergesOnly.otherFlagBitsKept (h : MergesOnly act s t d m) : OtherFlagBitsKept s t := fun k hk => by
  rw [h.flags, h.keepsOther _ k hk]

/-- With other FLAGS `act` answers the same state but for FLAGS, and keeps the bits that are no flag. -/
theorem MergesOnly.exists_flags (h : MergesOnly act s t d m) (g : Word) :
    ∃ g', act { s with flags := g } = .next { t with flags := g' }
      ∧ ∀ k, k ∉ [0, 2, 4, 6, 7, 11] → g'.getLsbD k = g.getLsbD k :=
  ⟨_, h.withFlags g, h.keepsOther g⟩

/-- Delivering an error reads and writes no flag. -/
theorem mergesOnly_raise {e : Error} (hs : s.status = .running)
    (h : ∀ g : Word, act { s with flags := g } = deliver { s with flags := g } (.error e)) :
    MergesOnly act s (s.raise e) 0 0 :=
  .of_flags_kept rfl fun g => by rw [h g, deliver_error (s := { s with flags := g }) hs]; rfl

/-- Every instruction that gives a next state merges masks of its own into FLAGS, empty ones where it is no arithmetic,
logical, shift or rotate instruction. -/
theorem exec_mergesOnly {j : Instr} (h : exec j s = .next t) :
    ∃ d m, MergesOnly (exec j) s t d m
      ∧ ((∀ op shape w f, j.form ≠ .alu2 op shape w f) → (∀ op shape w f, j.form ≠ .shift op shape w f) →
        d = 0 ∧ m = 0) := by
  obtain ⟨hs, ⟨u, hu, rfl⟩ | ⟨e, he, rfl⟩⟩ := exec_next h
  · obtain ⟨d, m, hd, hm, hf, hw, hno⟩ := formOutcome_withOther_ok hu
    refine ⟨d, m, ⟨hd, hm, hf, fun g => ?_⟩, hno⟩
    have keeps := handlerKeeps_formOutcome hu
    have same : (u.withOther (mergeFlags g d m) s.stream s.index) = { u with flags := mergeFlags g d m } := by
      rw [State.withOther, ← keeps.stream, ← keeps.index]
    rw [exec_eq_deliver, show formOutcome { s with flags := g } j.form = _ from hw g s.stream s.index, same,
      deliver_ok (s := { s with flags := g }) hs]
    rfl
  · refine ⟨0, 0, mergesOnly_raise hs fun g => ?_, fun _ _ => ⟨rfl, rfl⟩⟩
    rw [exec_eq_deliver]
    exact congrArg _ (formOutcome_withOther_error g s.stream s.index he)

/-- Settles O18: an instruction merges the same masks whatever FLAGS holds. -/
theorem noInstructionReadsAFlag : Obligations.NoInstructionReadsAFlag := by
  intro j s t h
  obtain ⟨d, m, hmerge, hno⟩ := exec_mergesOnly h
  exact ⟨d, m, hmerge.flags, hmerge.withFlags, hno⟩

theorem dispatch_mergesOnly {r : Record} (h : dispatch r s = .next t) : ∃ d m, MergesOnly (dispatch r) s t d m := by
  cases hr : decode r with
  | ok j =>
    have he : dispatch r = exec j := funext fun s => by simp only [dispatch, hr]
    rw [he] at h ⊢
    obtain ⟨d, m, hmerge, -⟩ := exec_mergesOnly h
    exact ⟨d, m, hmerge⟩
  | error e =>
    have he : dispatch r = fun s => deliver s (.error (rejectError e)) := funext fun s => by simp only [dispatch, hr]
    rw [he] at h ⊢
    obtain ⟨hs, ⟨u, hu, -⟩ | ⟨e', he', rfl⟩⟩ := deliver_next h
    · cases hu
    · cases he'
      exact ⟨0, 0, mergesOnly_raise hs fun _ => rfl⟩

/-! ## One step, by the place of the run -/

theorem step_of_not_active (hs : s.status = .running) (hr : s.run ≠ .active) : step s = .next s := by
  cases h : s.run with
  | active => exact absurd h hr
  | _ => simp [step, hs, runStep, h]

theorem step_of_stream_nil (hs : s.status = .running) (hr : s.run = .active) (hn : s.stream = []) :
    step s = .next s.completeRun := by
  simp [step, hs, runStep, hr, hn]

theorem step_of_stream_cons {r : Record} {rest : List Record} (hs : s.status = .running) (hr : s.run = .active)
    (hc : s.stream = r :: rest) (hd : dispatch r s = .next u) : step s = .next (afterRecord rest u) := by
  simp [step, hs, runStep, hr, hc, runRecord, hd]

@[simp] theorem afterRecord_flags (rest : List Record) (u : State) : (afterRecord rest u).flags = u.flags := by
  rcases afterRecord_cases rest u with ⟨h, -⟩ | h | ⟨e, -, h⟩ <;> rw [h] <;> rfl

/-- A step merges what its record merges, and nothing when it runs none. -/
theorem step_mergesOnly (h : step s = .next t) : ∃ d m, MergesOnly step s t d m := by
  obtain ⟨hs, ⟨hr, rfl⟩ | ⟨hr, hn, rfl⟩ | ⟨hr, r, rest, u, hc, hu, rfl⟩⟩ := step_next h
  · exact ⟨0, 0, .of_flags_kept rfl fun g => step_of_not_active hs hr⟩
  · exact ⟨0, 0, .of_flags_kept rfl fun g => step_of_stream_nil (s := { s with flags := g }) hs hr hn⟩
  · obtain ⟨d, m, hmerge⟩ := dispatch_mergesOnly hu
    refine ⟨d, m, hmerge.sixDef, hmerge.sixSet, by rw [afterRecord_flags, hmerge.flags], fun g => ?_⟩
    rw [step_of_stream_cons (s := { s with flags := g }) hs hr hc (hmerge.withFlags g), afterRecord_withFlags]

/-! ## The host calls that leave FLAGS alone -/

theorem hostInitRegion_flagsUntouched (addr : Word) (n : Nat) : FlagsUntouched (hostInitRegion addr n) := by
  refine hostCall_flagsUntouched fun s g => ?_
  unfold State.initRegion
  by_cases h : addr.toNat + n ≤ Config.addressSpace <;> simp [h]

theorem hostMemRead_flagsUntouched (addr : Word) (n : Nat) : FlagsUntouched (hostMemRead addr n) := by
  refine hostCall_flagsUntouched fun s g => ?_
  cases widthOfBytes n with
  | none => rfl
  | some w =>
    have same : State.memRead { s with flags := g } addr w = s.memRead addr w := rfl
    simp only [same]
    cases s.memRead addr w <;> rfl

theorem hostMemWrite_flagsUntouched (addr : Word) (n : Nat) (v : Word) : FlagsUntouched (hostMemWrite addr n v) := by
  refine hostCall_flagsUntouched fun s g => ?_
  cases widthOfBytes n with
  | none => rfl
  | some w =>
    have same : State.memWrite { s with flags := g } addr w v = _ := memWrite_withOther s g s.stream s.index w addr v
    simp only [same]
    cases h : s.memWrite addr w v with
    | error e => rfl
    | ok t => obtain ⟨-, rfl⟩ := memWrite_ok h; rfl

theorem hostRegRead_flagsUntouched (i : RegIdx) (n : Nat) : FlagsUntouched (hostRegRead i n) := by
  refine hostCall_flagsUntouched fun s g => ?_
  cases widthOfBits n <;> rfl

theorem hostRegWrite_flagsUntouched (i : RegIdx) (n : Nat) (v : Word) : FlagsUntouched (hostRegWrite i n v) := by
  refine hostCall_flagsUntouched fun s g => ?_
  cases widthOfBits n <;> rfl

theorem hostStartRun_flagsUntouched (rs : List Record) (skip hosted : Bool) :
    FlagsUntouched (hostStartRun rs skip hosted) := by
  refine hostCall_flagsUntouched fun s g => ?_
  cases h : s.run <;> rfl

theorem hostResume_flagsUntouched : FlagsUntouched hostResume := by
  refine hostCall_flagsUntouched fun s g => ?_
  cases h : s.run <;> rfl

/-- Settles O17: an instruction and a step merge masks inside the six flags, the same whatever FLAGS holds, and every
host call but the two of FLAGS leaves FLAGS alone. -/
theorem otherFlagBitsNeverChange : Obligations.OtherFlagBitsNeverChange := by
  intro s t
  refine ⟨fun h => ?_, ?_, fun v h => (hostReadFlags_ok h).1, fun v h => by rw [hostWriteFlags_ok h], fun j g h => ?_,
    fun g h => ?_, hostInitRegion_flagsUntouched, hostMemRead_flagsUntouched, hostMemWrite_flagsUntouched,
    hostRegRead_flagsUntouched, hostRegWrite_flagsUntouched, hostStartRun_flagsUntouched, hostResume_flagsUntouched⟩
  · obtain ⟨_, _, hmerge⟩ := step_mergesOnly h
    exact hmerge.otherFlagBitsKept
  · rintro (⟨_, _, h⟩ | ⟨_, _, _, h⟩ | ⟨_, _, _, h⟩ | ⟨_, _, _, h⟩ | ⟨_, _, _, h⟩ | ⟨_, h⟩ | ⟨_, _, _, h⟩ | h)
    · exact (hostInitRegion_flagsUntouched _ _).flags_eq h
    · exact (hostMemRead_flagsUntouched _ _).flags_eq h
    · exact (hostMemWrite_flagsUntouched _ _ _).flags_eq h
    · exact (hostRegRead_flagsUntouched _ _).flags_eq h
    · exact (hostRegWrite_flagsUntouched _ _ _).flags_eq h
    · rw [(hostReadFlags_ok h).2]
    · exact (hostStartRun_flagsUntouched _ _ _).flags_eq h
    · exact hostResume_flagsUntouched.flags_eq h
  · obtain ⟨_, _, hmerge, -⟩ := exec_mergesOnly h
    exact hmerge.exists_flags g
  · obtain ⟨_, _, hmerge⟩ := step_mergesOnly h
    exact hmerge.exists_flags g

/-! ## Register views -/

/-- Settles O24: the written cell bit by bit, the other cells, and the rest of the state. -/
theorem registerWriteReplacesOnlyItsView : Obligations.RegisterWriteReplacesOnlyItsView := by
  intro s i w v
  refine ⟨fun k _ => ?_, fun j hj => reg_regWrite_ne s w v hj, rfl⟩
  rw [reg_regWrite_same, getLsbD_writeView]

theorem widthOfBits_eq_none (h : n ∉ [8, 16, 32, 64]) : widthOfBits n = none := by
  simp only [List.mem_cons, List.not_mem_nil, or_false, not_or] at h
  obtain ⟨h8, h16, h32, h64⟩ := h
  rw [widthOfBits, if_neg h8, if_neg h16, if_neg h32, if_neg h64]

/-- Settles O33: a number of bits that names no width is refused before the register is looked at. -/
theorem hostRegisterWidthOutOfRange : Obligations.HostRegisterWidthOutOfRange := by
  intro s i bits v hs hbits
  have hw := widthOfBits_eq_none hbits
  constructor
  · rw [hostRegRead, hostCall_running hs, hw]
  · rw [hostRegWrite, hostCall_running hs, hw]

end Sys2Proof.Machine
end

section
/-! PROOFS. Registers and memory (20_memory.md): the effective address in the arithmetic of 64-bit words. -/

namespace Sys2Proof.Machine

@[simp] theorem ofNat_optReg_some (s : State) (i : RegIdx) : BitVec.ofNat 64 (s.optReg (some i)) = s.reg i := by
  rw [State.optReg, BitVec.ofNat_toNat, BitVec.setWidth_eq]

@[simp] theorem ofNat_optReg_none (s : State) : BitVec.ofNat 64 (s.optReg none) = 0 := rfl

/-- The one truncation of the exact sum (R62) is wrap-around at each of its operations. -/
theorem effectiveAddress_eq (s : State) (base index : Option RegIdx) (sc : Scale) (disp : Word) :
    s.effectiveAddress base index sc disp =
      BitVec.ofNat 64 (s.optReg base) + BitVec.ofNat 64 (s.optReg index) * BitVec.ofNat 64 sc.factor + disp := by
  rw [State.effectiveAddress, BitVec.ofNat_add, BitVec.ofNat_add, BitVec.ofNat_mul, BitVec.ofNat_toNat,
    BitVec.setWidth_eq]

theorem effectiveAddress_base (s : State) (b : RegIdx) (sc : Scale) (disp : Word) :
    s.effectiveAddress (some b) none sc disp = s.reg b + disp := by
  simp [effectiveAddress_eq]

/-- Settles O30: the wrapping sum in the four cases of which cells are present, then its worked example. -/
theorem effectiveAddressWraps : Obligations.EffectiveAddressWraps := by
  refine ⟨fun s b j sc disp => ⟨?both, effectiveAddress_base s b sc disp, ?index, ?neither⟩, fun s b hb => ?_⟩
  case both => rw [effectiveAddress_eq, ofNat_optReg_some, ofNat_optReg_some]
  case index => simp [effectiveAddress_eq]
  case neither => simp [effectiveAddress_eq]
  rw [effectiveAddress_base, hb]
  decide

end Sys2Proof.Machine
end

section
/-! PROOFS. Encoding (30_encoding.md): which descriptor widths resolve. -/

namespace Sys2Proof.Machine

variable {s : State} {id : OpcodeId} {k : Nat} {i : RegIdx} {nb : BitVec 4}

theorem widthOfBytes_toNat_eq_none (h : nb ∉ [1, 2, 4, 8]) : widthOfBytes nb.toNat = none := by
  refine Option.eq_none_iff_forall_ne_some.mpr fun w hw => h ?_
  have hnb : nb = BitVec.ofNat 4 w.bytes := by
    rw [← widthOfBytes_eq.mp hw, BitVec.ofNat_toNat, BitVec.setWidth_eq]
  rw [hnb]
  cases w <;> decide

theorem resolve_reg_ok {w : Width} (h : nb.toNat = w.bytes) : s.resolve id k (.reg i nb) = .ok (.reg i w) := by
  rw [State.resolve, h, widthOfBytes_bytes]

theorem resolve_reg_error (h : nb ∉ [1, 2, 4, 8]) :
    s.resolve id k (.reg i nb) = .error (.registerWidth (8 * nb.toNat)) := by
  rw [State.resolve, widthOfBytes_toNat_eq_none h]

theorem resolve_unrecognised : s.resolve id k .unrecognised = .error (.unsupportedOperandKind k id) := rfl

/-- Settles O31: one rule for the four widths in bytes, one for every other, one for kind 3. -/
theorem registerAndUnknownDescriptorsResolve : Obligations.RegisterAndUnknownDescriptorsResolve := by
  intro s id k i nb
  refine ⟨?w8, ?w16, ?w32, ?w64, resolve_reg_error, resolve_unrecognised⟩ <;> rintro rfl
  case w8 => exact resolve_reg_ok rfl
  case w16 => exact resolve_reg_ok rfl
  case w32 => exact resolve_reg_ok rfl
  case w64 => exact resolve_reg_ok rfl

end Sys2Proof.Machine
end

section
/-! PROOFS. The flag engine (40_flag_engine.md): operands outside memory always read, the result fits W bits, what a merge
writes, and ADD. -/

namespace Sys2Proof.Machine

variable {s t : State} {id : OpcodeId} {i : Instr} {op : EngineOp} {w : Width} {f : Fields} {a b : Word}

/-! ## Operands outside memory (R111) -/

/-- A descriptor that names no memory resolves to no memory operand. -/
theorem resolve_ne_mem {k : Nat} {d : Desc} {o : Operand} (hd : ∀ b j sc disp, d ≠ .mem b j sc disp)
    (h : s.resolve id k d = .ok o) (ea : Word) : o ≠ .mem ea := by
  rcases resolve_ok h with ⟨_, _, _, -, -, rfl⟩ | ⟨b, j, sc, disp, rfl, -⟩ | ⟨_, _, _, -, -, rfl⟩
  · nofun
  · exact absurd rfl (hd b j sc disp)
  · nofun

/-- An operand of the right width that is not in memory reads. -/
theorem exists_opRead_of_ne_mem {o : Operand} (hmem : ∀ ea, o ≠ .mem ea)
    (hfit : o.isRegOrMem w = true ∨ ∃ v nb, o = .imm v nb) : ∃ a, s.opRead id o w = .ok a := by
  cases o with
  | reg j wr =>
    have hw : wr = w := by simpa [Operand.isRegOrMem] using hfit
    exact ⟨_, if_pos hw⟩
  | mem ea => exact absurd rfl (hmem ea)
  | imm v nb => exact ⟨_, rfl⟩

theorem isRegOrMem_of_isReg {o : Operand} (h : o.isReg w = true) : o.isRegOrMem w = true := by
  cases o with
  | reg => exact h
  | mem => cases h
  | imm => cases h

theorem isRegOrMem_of_isFixedReg {o : Operand} {r : RegIdx} (h : o.isFixedReg r w = true) : o.isRegOrMem w = true := by
  cases o with
  | reg => exact (Bool.and_eq_true _ _ ▸ h).2
  | mem => cases h
  | imm => cases h

theorem exists_imm_of_isImm {o : Operand} {n : Nat} (h : o.isImm n = true) : ∃ v nb, o = .imm v nb := by
  cases o with
  | reg => cases h
  | mem => cases h
  | imm v nb => exact ⟨v, nb, rfl⟩

/-- Operands that fit a shape: the destination is a register view of width W or memory, the source that or an
immediate (R91, R122). -/
theorem kinds_of_fits2 {shape : AluShape} {dst src : Operand} (h : fits2 shape w dst src = true) :
    dst.isRegOrMem w = true ∧ (src.isRegOrMem w = true ∨ ∃ v nb, src = .imm v nb) := by
  cases shape <;> obtain ⟨hd, hs⟩ := (Bool.and_eq_true _ _).mp h
  case rmR => exact ⟨hd, .inl (isRegOrMem_of_isReg hs)⟩
  case rRm => exact ⟨isRegOrMem_of_isReg hd, .inl hs⟩
  case accImm => exact ⟨isRegOrMem_of_isFixedReg hd, .inr (exists_imm_of_isImm hs)⟩
  case rmImm => exact ⟨hd, .inr (exists_imm_of_isImm hs)⟩
  case rmImm8 => exact ⟨hd, .inr (exists_imm_of_isImm hs)⟩

/-- A well-formed two-operand instruction without a memory operand has its operands. -/
theorem exists_aluOperands {shape : AluShape} (hwf : (Form.alu2 op shape w f).wellFormed = true)
    (hs : s.status = .running) (h0 : ∀ b j sc disp, f.slot0.desc ≠ .mem b j sc disp)
    (h1 : ∀ b j sc disp, f.slot1.desc ≠ .mem b j sc disp) :
    ∃ dst src a b, AluOperands op shape w f s dst src a b := by
  obtain ⟨dst, src, hd, hsrc, hfit⟩ := resolve_wellFormed (s := s) hwf (aluId op shape w)
  obtain ⟨hdst, hsource⟩ := kinds_of_fits2 hfit
  obtain ⟨a, ha⟩ := exists_opRead_of_ne_mem (resolve_ne_mem h0 hd) (.inl hdst)
  obtain ⟨b, hb⟩ := exists_opRead_of_ne_mem (resolve_ne_mem h1 hsrc) hsource
  exact ⟨dst, src, a, b, hs, hwf, hd, hsrc, ha, hb⟩

/-- The destination of a well-formed shift resolves, and its count is there (R92, R123). -/
theorem shiftOperands_wellFormed {shape : ShiftShape} (hwf : (Form.shift op shape w f).wellFormed = true) :
    ∃ dst craw, s.shiftOperands id shape w f = .ok (dst, craw) := by
  simp only [Form.wellFormed, Bool.and_eq_true] at hwf
  obtain ⟨⟨⟨hcount, hr0⟩, hdst⟩, hcnt⟩ := hwf
  obtain ⟨dst, hd, hfit⟩ : ∃ dst, s.resolve id 0 f.slot0.desc = .ok dst ∧ dst.isRegOrMem w = true := by
    rcases resolve_isRegOrMem (s := s) (id := id) (k := 0) hdst with ⟨j, hj⟩ | ⟨ea, hea⟩
    · exact ⟨_, hj, beq_self_eq_true w⟩
    · exact ⟨_, hea, rfl⟩
  cases shape with
  | rm1 =>
    simp only [ShiftShape.opcount] at hcount
    simp only [State.shiftOperands, State.oneOperand, hcount, checkReserved_of hr0, hd, hfit, check_true, ok_bind]
    exact ⟨_, _, rfl⟩
  | rmCl =>
    obtain ⟨hr1, hcl⟩ := (Bool.and_eq_true _ _).mp hcnt
    simp only [ShiftShape.opcount] at hcount
    simp only [State.shiftOperands, State.countedOperands, hcount, checkReserved_of hr0, checkReserved_of hr1, hd,
      resolve_isFixedReg hcl, hfit, check_true, ok_bind]
    exact ⟨_, _, rfl⟩
  | rmImm8 =>
    obtain ⟨hr1, himm⟩ := (Bool.and_eq_true _ _).mp hcnt
    obtain ⟨_, _, -, hcount8⟩ := resolve_isImm (s := s) (id := id) (k := 1) (w := .w8) himm
    simp only [ShiftShape.opcount] at hcount
    simp only [State.shiftOperands, State.countedOperands, hcount, checkReserved_of hr0, checkReserved_of hr1, hd,
      hcount8, hfit, check_true, ok_bind]
    exact ⟨_, _, rfl⟩

/-- A well-formed shift or rotate whose destination is not in memory has its operands. -/
theorem exists_shiftOperands {shape : ShiftShape} (hwf : (Form.shift op shape w f).wellFormed = true)
    (hs : s.status = .running) (h0 : ∀ b j sc disp, f.slot0.desc ≠ .mem b j sc disp) :
    ∃ dst a craw, ShiftOperands op shape w f s dst a craw := by
  obtain ⟨dst, craw, hops⟩ := shiftOperands_wellFormed (s := s) (id := shiftId op shape w) hwf
  obtain ⟨hd, hfit⟩ := shiftOperands_ok hops
  obtain ⟨a, ha⟩ := exists_opRead_of_ne_mem (resolve_ne_mem h0 hd) (.inl hfit)
  exact ⟨dst, a, craw, hs, hwf, hops, ha⟩

theorem op_ne_cmp_of_shift {shape : ShiftShape} (h : i.form = .shift op shape w f) : op ≠ .cmp := by
  rcases op_of_shift h with rfl | rfl | rfl | rfl | rfl <;> decide

/-! ## The engine's result fits W bits (R110, R111) -/

theorem toNat_ofNat_lt {m r n : Nat} (h : r < 2 ^ n) : (BitVec.ofNat m r).toNat < 2 ^ n := by
  rw [BitVec.toNat_ofNat]
  exact (Nat.mod_le _ _).trans_lt h

/-- A shift or rotate has a W-bit result when it has one at every count; a zero count leaves the value. -/
theorem afeCounted_result_lt {shift : Nat → Nat → Nat → EngineOut} {n d : Nat} (hd : d < 2 ^ n)
    (h : ∀ c, (shift n d c).result.toNat < 2 ^ n) (craw : Nat) :
    (afeCounted shift n d craw).result.toNat < 2 ^ n := by
  unfold afeCounted
  split
  · exact toNat_ofNat_lt hd
  · exact h _

theorem afeRol_result_lt {n d : Nat} (hd : d < 2 ^ n) (c : Nat) : (afeRol n d c).result.toNat < 2 ^ n := by
  refine toNat_ofNat_lt ?_
  split
  · exact Nat.or_lt_two_pow (trunc_lt ..) ((Nat.shiftRight_le _ _).trans_lt hd)
  · exact hd

theorem afeRor_result_lt {n d : Nat} (hd : d < 2 ^ n) (c : Nat) : (afeRor n d c).result.toNat < 2 ^ n := by
  refine toNat_ofNat_lt ?_
  split
  · exact Nat.or_lt_two_pow ((Nat.shiftRight_le _ _).trans_lt hd) (trunc_lt ..)
  · exact hd

theorem lowBits_lt (w : Width) (v : Word) : (lowBits w v).toNat < 2 ^ w.bits := by
  rw [lowBits_toNat]
  exact Nat.mod_lt _ (Nat.two_pow_pos _)

/-- Every operation's result is a W-bit value. -/
theorem afe_result_lt (op : EngineOp) (w : Width) (d s : Word) : (afe op w d s).result.toNat < 2 ^ w.bits := by
  have hd := lowBits_lt w d
  have hs := lowBits_lt w s
  cases op with
  | add => exact toNat_ofNat_lt (trunc_lt ..)
  | or => exact toNat_ofNat_lt (Nat.or_lt_two_pow hd hs)
  | and => exact toNat_ofNat_lt (Nat.and_lt_two_pow _ hs)
  | sub => exact toNat_ofNat_lt (trunc_lt ..)
  | xor => exact toNat_ofNat_lt (Nat.xor_lt_two_pow hd hs)
  | cmp => exact toNat_ofNat_lt (trunc_lt ..)
  | rol => exact afeCounted_result_lt hd (afeRol_result_lt hd) _
  | ror => exact afeCounted_result_lt hd (afeRor_result_lt hd) _
  | shl => exact afeCounted_result_lt hd (fun c => toNat_ofNat_lt (trunc_lt ..)) _
  | shr => exact afeCounted_result_lt hd (fun c => toNat_ofNat_lt ((Nat.shiftRight_le _ c).trans_lt hd)) _
  | sar => exact afeCounted_result_lt hd (fun c => toNat_ofNat_lt (trunc_lt ..)) _

/-- Settles O23: without a memory operand every operand reads, so the instruction commits; and each operation's result
fits W bits. -/
theorem registerInstructionsNeverTrap : Obligations.RegisterInstructionsNeverTrap := by
  refine ⟨fun i op shape w f s hi hwf hs hmem => ?_, fun i op shape w f s hi hwf hs hmem => ?_, afe_result_lt⟩
  · rw [Instr.wellFormed, hi] at hwf
    obtain ⟨dst, src, a, b, hops⟩ :=
      exists_aluOperands hwf hs (fun b j sc disp => (hmem b j sc disp).1) fun b j sc disp => (hmem b j sc disp).2
    obtain ⟨t, ht, hraised, -⟩ := alu2_next hi hops
    exact ⟨t, ht, hraised⟩
  · rw [Instr.wellFormed, hi] at hwf
    obtain ⟨dst, a, craw, hops⟩ := exists_shiftOperands hwf hs hmem
    obtain ⟨t, ht, hraised, -⟩ := shift_next hi hops (op_ne_cmp_of_shift hi)
    exact ⟨t, ht, hraised⟩

/-! ## The merge (R121) -/

/-- A mask inside another has no bit outside it. -/
theorem getLsbD_eq_false_of_inside {d m : Word} (h : m &&& ~~~d = 0) {k : Nat} (hk : d.getLsbD k = false) :
    m.getLsbD k = false := by
  by_cases hlt : k < 64
  · have hbit : (m &&& ~~~d).getLsbD k = false := by rw [h]; exact BitVec.getLsbD_zero
    simpa only [BitVec.getLsbD_and, BitVec.getLsbD_not, hlt, hk, decide_true, Bool.not_false, Bool.and_true]
      using hbit
  · exact BitVec.getLsbD_of_ge m k (Nat.not_lt.mp hlt)

/-- An instruction that raised merged nothing. -/
theorem flags_eq_of_raised {e : Error} (h : exec i s = .next t) (he : t.raised = some e) : t.flags = s.flags := by
  obtain ⟨-, ⟨u, -, rfl⟩ | ⟨_, -, rfl⟩⟩ := exec_next h
  · cases he
  · rfl

/-- Settles O34: each bit of the merge by whether it lies in `def`; taking an error merges nothing. -/
theorem flagMergeWritesExactlyDef : Obligations.FlagMergeWritesExactlyDef := by
  refine ⟨fun s d m k hin => ?_, fun i s t e => flags_eq_of_raised⟩
  rw [State.mergeFlags_flags, getLsbD_mergeFlags]
  cases hk : d.getLsbD k with
  | false => simp [getLsbD_eq_false_of_inside hin hk]
  | true => simp

/-! ## ADD (R112 to R115, R117, R119, R130) -/

/-- The flags of ADD, SUB and CMP: all six are written, SF, ZF and PF from the result and CF, OF and AF as given. -/
theorem arithFlags_of_flags {r : Nat} {x : BitVec w.bits} {carry overflow aux : Bool} (hr : r = x.toNat)
    (h : t.flags = mergeFlags s.flags all6
      (szp r w.bits ||| Flag.cf.onlyIf carry ||| Flag.of.onlyIf overflow ||| Flag.af.onlyIf aux)) :
    ResultFlags w x t ∧ t.flag .cf = carry ∧ t.flag .of = overflow ∧ t.flag .af = aux := by
  subst hr
  have hflag := flag_of_flags h
  simp only [getLsbD_all6, Bool.not_true, Bool.and_false, Bool.false_or, BitVec.getLsbD_or, getLsbD_szp,
    getLsbD_onlyIf] at hflag
  exact ⟨resultFlags_of (by simp [hflag]) (by simp [hflag]) (by simp [hflag]), by simp [hflag], by simp [hflag],
    by simp [hflag]⟩

/-- On W-bit operands the engine adds them as they are. -/
theorem afe_add (ha : a.toNat < 2 ^ w.bits) (hb : b.toNat < 2 ^ w.bits) :
    afe .add w a b = afeAdd w.bits a.toNat b.toNat := by
  rw [afe, lowBits_of_lt ha, lowBits_of_lt hb]

/-- The overflow of an addition by the top bits of the operands and of the sum (R117). -/
theorem overflowAdd_iff (x y : BitVec w.bits) :
    overflowAdd x.toNat y.toNat (x + y).toNat w.bits = true ↔ x.msb = y.msb ∧ (x + y).msb ≠ x.msb := by
  simp only [overflowAdd, testBit_msb, Bool.and_eq_true, beq_iff_eq, bne_iff_ne]

/-- Settles O36: the engine's truncated sum is the sum of W-bit words, and each flag's formula is its definition. -/
theorem addWritesTheSumAndSixFlags : Obligations.AddWritesTheSumAndSixFlags := by
  intro i shape w f s dst src a b hi hops
  obtain ⟨-, -, -, -, hreadA, hreadB⟩ := id hops
  have ha := opRead_lt hreadA
  have hb := opRead_lt hreadB
  obtain ⟨t, hexec, hraised, hflags, hwrite, -⟩ := alu2_next hi hops
  have hother := otherFlagBitsKept_of_flags hflags
  have hsum := trunc_add ha hb
  rw [afe_add ha hb] at hflags hwrite
  obtain ⟨hresult, hcf, hof, haf⟩ := arithFlags_of_flags hsum hflags
  have hoverflow : t.flag .of = true ↔
      (atWidth w a).msb = (atWidth w b).msb ∧ (atWidth w a + atWidth w b).msb ≠ (atWidth w a).msb := by
    rw [hof, hsum, ← overflowAdd_iff, atWidth_toNat ha, atWidth_toNat hb]
  refine ⟨t, hexec, ⟨hraised, ?_⟩, hresult, ?_, hoverflow, hoverflow.trans (overflow_add_iff _ _), ?_, hother⟩
  · rw [← hwrite (by decide), afeAdd, ofNat_eq_setWidth hsum]
  · rw [hcf, carryAdd_iff ha hb]
  · rw [haf, auxAdd_iff]

end Sys2Proof.Machine
end

section
/-! PROOFS. PUSH and POP (44_stack.md): what one that succeeds did to the stack pointer and the data, what one that raises
leaves alone, and the 32-bit forms. -/

namespace Sys2Proof.Machine

variable {s t : State} {id : OpcodeId} {k : Nat} {i : Instr} {r : RegIdx} {w : Width} {f : Fields}

/-! ## An instruction's success and its error, told apart by `raised` -/

/-- An instruction that raised changed no register and no byte (R187). -/
theorem regs_mem_eq_of_raised {e : Error} (h : exec i s = .next t) (he : t.raised = some e) :
    t.regs = s.regs ∧ t.mem = s.mem := by
  obtain ⟨-, ⟨u, -, rfl⟩ | ⟨_, -, rfl⟩⟩ := exec_next h
  · cases he
  · exact ⟨State.raise_regs .., State.raise_mem ..⟩

/-- An instruction that raised nothing delivered its handler's state. -/
theorem formOutcome_of_not_raised (h : exec i s = .next t) (he : t.raised = none) :
    ∃ u, formOutcome s i.form = .ok u ∧ t = u.succeed := by
  obtain ⟨-, hu | ⟨_, -, rfl⟩⟩ := exec_next h
  · exact hu
  · cases he

/-! ## Registers -/

@[simp] theorem reg_succeed (s : State) (r : RegIdx) : s.succeed.reg r = s.reg r := rfl

/-- Only a register descriptor resolves to a register view. -/
theorem desc_of_resolve_reg {d : Desc} (h : s.resolve id k d = .ok (.reg r w)) : ∃ nb, d = .reg r nb := by
  obtain ⟨r', nb, w', rfl, -, ho⟩ | ⟨_, _, _, _, -, ho⟩ | ⟨_, _, _, -, -, ho⟩ := resolve_ok h
  · cases ho; exact ⟨nb, rfl⟩
  · cases ho
  · cases ho

/-- A view that was written holds the value's low W bits (R24 to R26). -/
theorem setWidth_writeView (w : Width) (old v : Word) :
    (writeView w old v).setWidth w.bits = v.setWidth w.bits := by
  refine BitVec.eq_of_getLsbD_eq fun b hb => ?_
  rw [BitVec.getLsbD_setWidth, BitVec.getLsbD_setWidth, getLsbD_writeView, if_pos hb]

/-! ## PUSH and POP (R173) -/

/-- A PUSH that succeeded moved the stack pointer down and stored its register there (R170). -/
theorem push_of_not_raised (hi : i.form = .push w f) (h : exec i s = .next t) (he : t.raised = none) :
    t.reg .rsp = s.pushAddress w
      ∧ ∃ r nb, f.slot0.desc = .reg r nb
        ∧ t.mem = s.mem.writeLE (s.pushAddress w).toNat (s.regRead r w).toNat w.bytes := by
  obtain ⟨u, hu, rfl⟩ := formOutcome_of_not_raised h he
  rw [hi] at hu
  obtain ⟨r, hr, -, rfl⟩ := pushHandler_ok hu
  obtain ⟨nb, hd⟩ := desc_of_resolve_reg hr
  exact ⟨by simp, r, nb, hd, rfl⟩

/-- A POP that succeeded read at the old stack pointer, moved it up, and wrote its register last (R171, C1, C9). -/
theorem pop_of_not_raised (hi : i.form = .pop w f) (h : exec i s = .next t) (he : t.raised = none) :
    ∃ r nb v, f.slot0.desc = .reg r nb ∧ s.memRead (s.reg .rsp) w = .ok v
      ∧ (t.reg r).setWidth w.bits = v.setWidth w.bits
      ∧ (r ≠ .rsp → t.reg .rsp = s.popAddress w) := by
  obtain ⟨u, hu, rfl⟩ := formOutcome_of_not_raised h he
  rw [hi] at hu
  obtain ⟨r, v, hr, hv, rfl⟩ := popHandler_ok hu
  obtain ⟨nb, hd⟩ := desc_of_resolve_reg hr
  refine ⟨r, nb, v, hd, hv, ?_, fun hne => ?_⟩
  · rw [reg_succeed, reg_regWrite_same, setWidth_writeView]
  · rw [reg_succeed, reg_regWrite_ne _ _ _ hne.symm, State.reg_setReg_same]

/-- Settles O51: an error keeps registers and memory; a success moved the stack pointer together with the data. -/
theorem pushAndPopAreAtomic : Obligations.PushAndPopAreAtomic := by
  intro i w f s t _ h
  exact ⟨fun e => regs_mem_eq_of_raised h,
    fun he => ⟨fun hi => push_of_not_raised hi h he, fun hi => pop_of_not_raised hi h he⟩⟩

/-- Settles O52: the rows of this form are of 32-bit operand size, and dispatch delivers their error (R172). -/
theorem thirtyTwoBitStackFormsAreDefects : Obligations.ThirtyTwoBitStackFormsAreDefects := by
  intro i op v s hi hs
  refine ⟨variant_of_defect32 hi, ?_⟩
  rw [exec_of_form hi, formOutcome, deliver_error hs]

end Sys2Proof.Machine
end

section
/-! PROOFS. Encoding (30_encoding.md): decoding an encoded instruction gives it back. -/

namespace Sys2Proof

/-! ## The words of a record (R81, R82) -/

section Append
variable {v w : Nat} (hi : BitVec v) (lo : BitVec w)

/-- The last of the words in a row. -/
theorem extractLsb'_append_last : (hi ++ lo).extractLsb' 0 w = lo := by
  rw [BitVec.extractLsb'_append_eq_of_add_le (Nat.zero_add w).le, BitVec.extractLsb'_eq_self]

/-- A field above the last of the words in a row is a field of the others. -/
theorem extractLsb'_append_skip (k len : Nat) : (hi ++ lo).extractLsb' (w + k) len = hi.extractLsb' k len := by
  rw [BitVec.extractLsb'_append_eq_of_le (Nat.le_add_right w k), Nat.add_sub_cancel_left]

end Append

section Record
variable (hdr ctl0 ctl1 : BitVec 32) (pay0 pay1 : Word)

@[simp] theorem Record.hdr_make : (Record.make hdr ctl0 pay0 ctl1 pay1).hdr = hdr := extractLsb'_append_last ..

@[simp] theorem Record.ctl0_make : (Record.make hdr ctl0 pay0 ctl1 pay1).ctl0 = ctl0 :=
  (extractLsb'_append_skip _ hdr 0 32).trans (extractLsb'_append_last ..)

@[simp] theorem Record.pay0_make : (Record.make hdr ctl0 pay0 ctl1 pay1).pay0 = pay0 :=
  (extractLsb'_append_skip _ hdr 32 64).trans <| (extractLsb'_append_skip _ ctl0 0 64).trans <|
    extractLsb'_append_last ..

@[simp] theorem Record.ctl1_make : (Record.make hdr ctl0 pay0 ctl1 pay1).ctl1 = ctl1 :=
  (extractLsb'_append_skip _ hdr 96 32).trans <| (extractLsb'_append_skip _ ctl0 64 32).trans <|
    (extractLsb'_append_skip _ pay0 0 32).trans <| extractLsb'_append_last ..

@[simp] theorem Record.pay1_make : (Record.make hdr ctl0 pay0 ctl1 pay1).pay1 = pay1 :=
  (extractLsb'_append_skip _ hdr 128 64).trans <| (extractLsb'_append_skip _ ctl0 96 64).trans <|
    (extractLsb'_append_skip _ pay0 32 64).trans <| (extractLsb'_append_skip _ ctl1 0 64).trans <|
      BitVec.extractLsb'_eq_self
end Record

section Header
variable (opcount : BitVec 2) (id : OpcodeId)

@[simp] theorem opcodeIdOf_makeHdr : opcodeIdOf (makeHdr opcount id) = id :=
  congrArg₂ OpcodeId.mk (extractLsb'_append_last ..)
    ((extractLsb'_append_skip _ id.mnemonic 0 8).trans (extractLsb'_append_last ..))

@[simp] theorem opcount_makeHdr : (makeHdr opcount id).extractLsb' 16 2 = opcount :=
  (extractLsb'_append_skip _ id.mnemonic 8 2).trans <| (extractLsb'_append_skip _ id.variant 0 2).trans <|
    extractLsb'_append_last ..

@[simp] theorem reserved_makeHdr : (makeHdr opcount id).extractLsb' 18 14 = 0 :=
  (extractLsb'_append_skip _ id.mnemonic 10 14).trans <| (extractLsb'_append_skip _ id.variant 2 14).trans <|
    (extractLsb'_append_skip _ opcount 0 14).trans <| BitVec.extractLsb'_eq_self
end Header

/-! ## A control word (R83) -/

section Ctl
variable (reserved : BitVec 14) (scale : BitVec 2) (index : BitVec 4) (ip bp : BitVec 1) (wbytes num : BitVec 4)
  (kind : BitVec 2)

@[simp] theorem kind_makeCtl : (makeCtl reserved scale index ip bp wbytes num kind).extractLsb' 0 2 = kind :=
  extractLsb'_append_last ..

@[simp] theorem num_makeCtl : (makeCtl reserved scale index ip bp wbytes num kind).extractLsb' 2 4 = num :=
  (extractLsb'_append_skip _ kind 0 4).trans (extractLsb'_append_last ..)

/-- Above the kind and the number stand the other six fields. -/
theorem extractLsb'_makeCtl (k len : Nat) :
    (makeCtl reserved scale index ip bp wbytes num kind).extractLsb' (2 + (4 + k)) len
      = (reserved ++ scale ++ index ++ ip ++ bp ++ wbytes : BitVec (14 + 2 + 4 + 1 + 1 + 4)).extractLsb' k len :=
  (extractLsb'_append_skip _ kind (4 + k) len).trans (extractLsb'_append_skip _ num k len)

@[simp] theorem wbytes_makeCtl : (makeCtl reserved scale index ip bp wbytes num kind).extractLsb' 6 4 = wbytes :=
  (extractLsb'_makeCtl _ _ _ _ _ _ num kind 0 4).trans (extractLsb'_append_last ..)

@[simp] theorem basePresent_makeCtl : (makeCtl reserved scale index ip bp wbytes num kind).extractLsb' 10 1 = bp :=
  (extractLsb'_makeCtl _ _ _ _ _ _ num kind 4 1).trans <| (extractLsb'_append_skip _ wbytes 0 1).trans <|
    extractLsb'_append_last ..

@[simp] theorem indexPresent_makeCtl : (makeCtl reserved scale index ip bp wbytes num kind).extractLsb' 11 1 = ip :=
  (extractLsb'_makeCtl _ _ _ _ _ _ num kind 5 1).trans <| (extractLsb'_append_skip _ wbytes 1 1).trans <|
    (extractLsb'_append_skip _ bp 0 1).trans <| extractLsb'_append_last ..

/-- Above the presence bits stand the index, the scale and the reserved bits. -/
theorem extractLsb'_makeCtl_index (k len : Nat) :
    (makeCtl reserved scale index ip bp wbytes num kind).extractLsb' (2 + (4 + (4 + (1 + (1 + k))))) len
      = (reserved ++ scale ++ index : BitVec (14 + 2 + 4)).extractLsb' k len :=
  (extractLsb'_makeCtl _ _ _ _ _ _ num kind _ len).trans <| (extractLsb'_append_skip _ wbytes _ len).trans <|
    (extractLsb'_append_skip _ bp _ len).trans <| extractLsb'_append_skip _ ip k len

@[simp] theorem index_makeCtl : (makeCtl reserved scale index ip bp wbytes num kind).extractLsb' 12 4 = index :=
  (extractLsb'_makeCtl_index _ _ _ _ _ _ num kind 0 4).trans (extractLsb'_append_last ..)

@[simp] theorem scale_makeCtl : (makeCtl reserved scale index ip bp wbytes num kind).extractLsb' 16 2 = scale :=
  (extractLsb'_makeCtl_index _ _ _ _ _ _ num kind 4 2).trans <| (extractLsb'_append_skip _ index 0 2).trans <|
    extractLsb'_append_last ..

@[simp] theorem reserved_makeCtl : (makeCtl reserved scale index ip bp wbytes num kind).extractLsb' 18 14 = reserved :=
  (extractLsb'_makeCtl_index _ _ _ _ _ _ num kind 6 14).trans <| (extractLsb'_append_skip _ index 2 14).trans <|
    (extractLsb'_append_skip _ scale 0 14).trans <| BitVec.extractLsb'_eq_self
end Ctl

/-! ## A slot (R83) -/

@[simp] theorem regOfField_field (i : RegIdx) : regOfField (RegIdx.field i) = i := rfl

@[simp] theorem scaleOfField_log2 (sc : Scale) : scaleOfField sc.log2 = sc := by cases sc <;> rfl

/-- An optional cell is read back from its presence bit and its number. -/
@[simp] theorem optCell_roundTrip (o : Option RegIdx) :
    (if presentBit o = 1#1 then some (regOfField (optField o)) else none) = o := by
  cases o <;> rfl

@[simp] theorem reserved_ctl (s : Slot) : s.ctl.extractLsb' 18 14 = s.reserved := by
  unfold Slot.ctl
  split <;> exact reserved_makeCtl ..

/-- A descriptor is read back from its slot's words, every field its kind uses at every value. -/
@[simp] theorem decodeDesc_ctl_pay (s : Slot) : decodeDesc s.ctl s.pay = s.desc := by
  obtain ⟨reserved, desc⟩ := s
  cases desc with
  | reg num nb => simp [Slot.ctl, decodeDesc]
  | mem base index scale disp => simp [Slot.ctl, Slot.pay, decodeDesc]
  | imm nb pay => simp [Slot.ctl, Slot.pay, decodeDesc]
  | unrecognised => simp [Slot.ctl, decodeDesc]

@[simp] theorem decodeSlot_ctl_pay (s : Slot) : decodeSlot s.ctl s.pay = s := by
  simp [decodeSlot]

/-! ## A record -/

/-- The fields of an encoded opcode are read back, and its header has no reserved bit. -/
theorem decode_encodeFields (id : OpcodeId) (f : Fields) : decode (encodeFields id f) = decodeOpcode id f := by
  simp [decode, encodeFields, decodeFields]

/-- The decoder's tables read back each row from its own ids and fields (R95). -/
theorem decodeOpcode_form (i : Instr) : decodeOpcode i.form.id i.form.fields = .ok i := by cases i <;> rfl

/-- Settles O1: the record's fields are read back, then the row by the decoder's tables. -/
theorem decodeOfEncodeIsTheInstruction : Obligations.DecodeOfEncodeIsTheInstruction := by
  intro i
  rw [encode, decode_encodeFields, decodeOpcode_form]

end Sys2Proof
end

section
/-! PROOFS. Encoding (30_encoding.md): which records select a row, which fields of a record do not matter, the listed
records, and the engine's command word. -/

namespace Sys2Proof

/-! ## The variant tables (R91 to R93) -/

/-- A mnemonic's table has a row for exactly the variants listed, each with the ids it is looked up by; the rows of the
variants `handled` carry the record's fields. -/
def Selects (m : BitVec 8) (variants handled : List (BitVec 8)) (table : BitVec 8 → Fields → Option Instr) : Prop :=
  (∀ v f, v ∈ variants → ∃ i, table v f = some i)
    ∧ ∀ v f i, table v f = some i → v ∈ variants ∧ i.form.id = ⟨m, v⟩ ∧ (v ∈ handled → i.form.fields = f)

section Selects
variable {id : OpcodeId} {m : BitVec 8} {variants handled : List (BitVec 8)}
  {table : BitVec 8 → Fields → Option Instr}

theorem Selects.exists_ok (h : Selects m variants handled table) (hm : id.mnemonic = m) (f : Fields)
    (hv : id.variant ∈ variants) :
    ∃ i, orUnrecognised id (table id.variant f) = .ok i ∧ i.form.id = id
      ∧ (id.variant ∈ handled → i.form.fields = f) := by
  obtain ⟨i, hi⟩ := h.1 _ f hv
  obtain ⟨-, hid, hf⟩ := h.2 _ _ _ hi
  exact ⟨i, by rw [hi]; rfl, by rw [hid, ← hm], hf⟩

theorem Selects.eq_error (h : Selects m variants handled table) (f : Fields) (hv : id.variant ∉ variants) :
    orUnrecognised id (table id.variant f) = .error (.unrecognisedVariant id) := by
  cases hi : table id.variant f with
  | none => rfl
  | some i => exact absurd (h.2 _ _ _ hi).1 hv

end Selects

/-- The nineteen variants of R91. -/
abbrev aluVariants : List (BitVec 8) :=
  [0x00, 0x01, 0x02, 0x03, 0x04, 0x05, 0x06, 0x07, 0x08, 0x09, 0x0A, 0x0B, 0x0C, 0x0D, 0x0E, 0x0F, 0x11, 0x12, 0x13]

theorem mem_aluVariants : ∀ v : BitVec 8, v ∈ aluVariants ↔ v.toNat < 0x14 ∧ v ≠ 0x10 := by decide

/-- The twelve variants of R92. -/
abbrev shiftVariants : List (BitVec 8) :=
  [0x00, 0x01, 0x02, 0x03, 0x04, 0x05, 0x06, 0x07, 0x08, 0x09, 0x0A, 0x0B]

theorem mem_shiftVariants : ∀ v : BitVec 8, v ∈ shiftVariants ↔ v.toNat < 0x0C := by decide

/-- The variants of a mnemonic of the engine. -/
def EngineOp.variants : EngineOp → List (BitVec 8)
  | .add | .or | .and | .sub | .xor | .cmp => aluVariants
  | .rol | .ror | .shl | .shr | .sar => shiftVariants

/-- The decoder's table for a mnemonic of the engine. -/
def EngineOp.table : EngineOp → BitVec 8 → Fields → Option Instr
  | .add => decodeAdd
  | .or => decodeOr
  | .and => decodeAnd
  | .sub => decodeSub
  | .xor => decodeXor
  | .cmp => decodeCmp
  | .rol => decodeRol
  | .ror => decodeRor
  | .shl => decodeShl
  | .shr => decodeShr
  | .sar => decodeSar

theorem decodeOpcode_engine {op : EngineOp} {id : OpcodeId} (hm : op.mnemonicId = id.mnemonic) (f : Fields) :
    decodeOpcode id f = orUnrecognised id (op.table id.variant f) := by
  obtain ⟨m, v⟩ := id
  obtain rfl : op.mnemonicId = m := hm
  cases op <;> rfl

theorem EngineOp.selects (op : EngineOp) : Selects op.mnemonicId op.variants op.variants op.table := by
  refine ⟨fun v f hv => ?_, fun v f i h => ?_⟩
  · cases op <;> fin_cases hv <;> exact ⟨_, rfl⟩
  · cases op <;> simp only [table, decodeAdd, decodeOr, decodeAnd, decodeSub, decodeXor, decodeCmp, decodeRol,
      decodeRor, decodeShl, decodeShr, decodeSar] at h <;> split at h <;> cases h <;>
      exact ⟨by decide, rfl, fun _ => rfl⟩

/-- The variants of PUSH and POP (R93). -/
def StackOp.variants : StackOp → List (BitVec 8)
  | .push => [0x01, 0x03, 0x02, 0x06, 0x0A, 0x05, 0x07, 0x09, 0x0B]
  | .pop => [0x01, 0x03, 0x02, 0x06, 0x0A, 0x05, 0x07]

/-- The decoder's table for PUSH and POP. -/
def StackOp.table : StackOp → BitVec 8 → Fields → Option Instr
  | .push => decodePush
  | .pop => decodePop

theorem decodeOpcode_stack {op : StackOp} {id : OpcodeId} (hm : op.mnemonicId = id.mnemonic) (f : Fields) :
    decodeOpcode id f = orUnrecognised id (op.table id.variant f) := by
  obtain ⟨m, v⟩ := id
  obtain rfl : op.mnemonicId = m := hm
  cases op <;> rfl

theorem StackOp.selects (op : StackOp) : Selects op.mnemonicId op.variants [0x01, 0x03] op.table := by
  refine ⟨fun v f hv => ?_, fun v f i h => ?_⟩
  · cases op <;> fin_cases hv <;> exact ⟨_, rfl⟩
  · cases op <;> simp only [table, decodePush, decodePop] at h <;> split at h <;> cases h <;>
      refine ⟨by decide, rfl, fun hv => ?_⟩ <;> simp at hv <;> rfl

/-! ## The row or the rejection of a header (R89 to R93, R95) -/

section Opcode
variable {id : OpcodeId} (f : Fields)

/-- `accepted` says which variants of the operation there are. -/
theorem decodeOpcode_of_engine {op : EngineOp} {accepted : Prop} [Decidable accepted]
    (hm : op.mnemonicId = id.mnemonic) (hv : id.variant ∈ op.variants ↔ accepted) :
    if accepted then ∃ i, decodeOpcode id f = .ok i ∧ i.form.id = id ∧ i.form.fields = f
    else decodeOpcode id f = .error (.unrecognisedVariant id) := by
  rw [decodeOpcode_engine hm]
  split
  · obtain ⟨i, hi, hid, hf⟩ := op.selects.exists_ok hm.symm f (hv.mpr ‹_›)
    exact ⟨i, hi, hid, hf (hv.mpr ‹_›)⟩
  · exact op.selects.eq_error f (mt hv.mp ‹_›)

theorem decodeOpcode_of_stack {op : StackOp} (hm : op.mnemonicId = id.mnemonic) :
    (id.variant ∈ op.variants → ∃ i, decodeOpcode id f = .ok i ∧ i.form.id = id
        ∧ (id.variant ∈ [0x01#8, 0x03#8] → i.form.fields = f))
      ∧ (id.variant ∉ op.variants → decodeOpcode id f = .error (.unrecognisedVariant id)) := by
  rw [decodeOpcode_stack hm]
  exact ⟨op.selects.exists_ok hm.symm f, op.selects.eq_error f⟩

theorem decodeOpcode_of_reserved (hm : id.mnemonic ∈ [0x02#8, 0x03#8, 0x12#8, 0x13#8, 0x16#8]) :
    ∃ i, decodeOpcode id f = .ok i ∧ i.form.id = id := by
  obtain ⟨_, v⟩ := id
  fin_cases hm <;> exact ⟨_, rfl, rfl⟩

theorem decodeOpcode_of_noTable (hm : id.mnemonic ∉ [0x00#8, 0x01#8, 0x02#8, 0x03#8, 0x04#8, 0x05#8, 0x06#8, 0x07#8,
    0x10#8, 0x11#8, 0x12#8, 0x13#8, 0x14#8, 0x15#8, 0x16#8, 0x17#8, 0x20#8, 0x21#8]) :
    decodeOpcode id f = .error (.noTable id) := by
  unfold decodeOpcode
  split
  case h_19 => rfl
  all_goals exact absurd (by rw [‹id.mnemonic = _›]; decide) hm

end Opcode

theorem decode_of_header {r : Record} (h : r.hdr.extractLsb' 18 14 = 0) :
    decode r = decodeOpcode (opcodeIdOf r.hdr) (decodeFields r) := if_pos h

/-- Settles O3: by the mnemonic id, the engine's tables, those of PUSH and POP, the reserved ids, or no table. -/
theorem decodeSelectsARowOrRejectsByName : Obligations.DecodeSelectsARowOrRejectsByName := by
  intro r id
  refine ⟨fun h => if_neg h, fun h => ?_⟩
  rw [decode_of_header h]
  refine ⟨decodeOpcode_of_noTable _, fun hm => ?alu, fun hm => ?shift, fun hm => ?stack, decodeOpcode_of_reserved _⟩
  case alu =>
    obtain ⟨op, hop, hid⟩ := List.mem_map.mp
      (show id.mnemonic ∈ [EngineOp.add, .or, .and, .sub, .xor, .cmp].map EngineOp.mnemonicId from hm)
    exact decodeOpcode_of_engine _ hid (by fin_cases hop <;> exact mem_aluVariants _)
  case shift =>
    obtain ⟨op, hop, hid⟩ := List.mem_map.mp
      (show id.mnemonic ∈ [EngineOp.rol, .ror, .shl, .shr, .sar].map EngineOp.mnemonicId from hm)
    exact decodeOpcode_of_engine _ hid (by fin_cases hop <;> exact mem_shiftVariants _)
  case stack =>
    obtain ⟨op, hid⟩ : ∃ op : StackOp, op.mnemonicId = id.mnemonic :=
      hm.elim (fun hm => ⟨.push, hm.symm⟩) fun hm => ⟨.pop, hm.symm⟩
    obtain ⟨hrow, hnone⟩ := decodeOpcode_of_stack (decodeFields r) hid
    refine ⟨fun hv => ?_, fun hv => ?_, fun hv => ?_, fun hv => hnone (mt (fun h => ?_) hv)⟩
    · obtain ⟨i, hi, hform, hf⟩ := hrow ((by cases op <;> decide : ∀ v ∈ [0x01#8, 0x03#8], v ∈ op.variants) _ hv)
      exact ⟨i, hi, hform, hf hv⟩
    · obtain ⟨i, hi, hform, -⟩ := hrow
        ((by cases op <;> decide : ∀ v ∈ [0x02#8, 0x06#8, 0x0A#8, 0x05#8, 0x07#8], v ∈ op.variants) _ hv)
      exact ⟨i, hi, hform⟩
    · cases op with
      | push =>
        obtain ⟨i, hi, hform, -⟩ := hrow ((by decide : ∀ v ∈ [0x09#8, 0x0B#8], v ∈ StackOp.push.variants) _ hv)
        exact (if_pos (show id.mnemonic = 0x20 from hid.symm)).mpr ⟨i, hi, hform⟩
      | pop =>
        rw [if_neg (by rw [← hid]; decide)]
        exact hnone ((by decide : ∀ v ∈ [0x09#8, 0x0B#8], v ∉ StackOp.pop.variants) _ hv)
    · exact (by cases op <;> decide : ∀ v ∈ op.variants, v ∈ StackOp.push.variants) _ h

/-! ## The fields a descriptor's kind uses (R83, R86) -/

section Desc
variable {c c' : BitVec 32} (p : Word)

theorem decodeDesc_reg (h : c.extractLsb' 0 2 = 0) :
    decodeDesc c p = .reg (regOfField (c.extractLsb' 2 4)) (c.extractLsb' 6 4) := by
  simp [decodeDesc, h]

theorem decodeDesc_mem (h : c.extractLsb' 0 2 = 1) :
    decodeDesc c p = .mem (if c.extractLsb' 10 1 = 1 then some (regOfField (c.extractLsb' 2 4)) else none)
      (if c.extractLsb' 11 1 = 1 then some (regOfField (c.extractLsb' 12 4)) else none)
      (scaleOfField (c.extractLsb' 16 2)) p := by
  simp [decodeDesc, h]

theorem decodeDesc_imm (h : c.extractLsb' 0 2 = 2) : decodeDesc c p = .imm (c.extractLsb' 6 4) p := by
  simp [decodeDesc, h]

theorem decodeDesc_unrecognised (h : c.extractLsb' 0 2 = 3) : decodeDesc c p = .unrecognised := by
  simp [decodeDesc, h]

/-- Words that agree on a field agree on each part of it. -/
theorem extractLsb'_part {start len k n : Nat} (h : c.extractLsb' start len = c'.extractLsb' start len)
    (hk : k + n ≤ len) : c.extractLsb' (start + k) n = c'.extractLsb' (start + k) n := by
  refine BitVec.eq_of_getLsbD_eq fun b hb => ?_
  have hbit := congrArg (BitVec.getLsbD · (k + b)) h
  simpa [hb, show k + b < len by omega, Nat.add_assoc] using hbit

/-- An optional cell is the same when its presence bit is and, with the cell present, its number. -/
theorem optCell_congr {bit : BitVec 1} {num num' : BitVec 4} (h : bit = 1 → num = num') :
    (if bit = 1 then some (regOfField num) else none) = if bit = 1 then some (regOfField num') else none := by
  split
  · rw [h ‹_›]
  · rfl

end Desc

namespace Machine

variable {s : State} {id : OpcodeId} {k : Nat} {nb : BitVec 4} {pay : Word}

/-- An immediate is masked to its declared width (R86). -/
theorem resolve_imm_ok {w : Width} (h : nb.toNat = w.bytes) :
    s.resolve id k (.imm nb pay) = .ok (.imm (lowBits w pay) w) := by
  rw [State.resolve, h, widthOfBytes_bytes]

theorem resolve_imm_error (h : nb ∉ [1, 2, 4, 8]) :
    s.resolve id k (.imm nb pay) = .error (.unsupportedOperandKind k id) := by
  rw [State.resolve, widthOfBytes_toNat_eq_none h]

end Machine

/-- Settles O4: kind by kind, a descriptor is made of the fields its kind uses; an immediate is masked when it is
resolved. -/
theorem unusedDescriptorFieldsAreIgnored : Obligations.UnusedDescriptorFieldsAreIgnored := by
  intro c c' p p' hkind
  refine ⟨fun h hfields => ?reg, fun h hp hpresent hscale hbase hindex => ?mem, fun h hnb w hw hpay s id k => ?imm,
    fun h => ?unrecognised⟩ <;> have h' := hkind.symm.trans h
  case reg =>
    have hnum : c.extractLsb' 2 4 = c'.extractLsb' 2 4 := extractLsb'_part (k := 0) hfields (by decide)
    have hwidth : c.extractLsb' 6 4 = c'.extractLsb' 6 4 := extractLsb'_part (k := 4) hfields (by decide)
    rw [decodeDesc_reg p h, decodeDesc_reg p' h', hnum, hwidth]
  case mem =>
    have hbp : c.extractLsb' 10 1 = c'.extractLsb' 10 1 := extractLsb'_part (k := 0) hpresent (by decide)
    have hip : c.extractLsb' 11 1 = c'.extractLsb' 11 1 := extractLsb'_part (k := 1) hpresent (by decide)
    rw [decodeDesc_mem p h, decodeDesc_mem p' h', optCell_congr hbase, optCell_congr hindex, hbp, hip, hscale, hp]
  case imm =>
    rw [decodeDesc_imm p h, decodeDesc_imm p' h', Machine.resolve_imm_ok hw, Machine.resolve_imm_ok (hnb ▸ hw),
      Machine.lowBits_eq, Machine.lowBits_eq, hpay]
  case unrecognised => rw [decodeDesc_unrecognised p h, decodeDesc_unrecognised p' h']

/-- Settles O2: the decoder runs on each of the six words. -/
theorem listedRecordsDecode : Obligations.ListedRecordsDecode := by
  unfold Obligations.ListedRecordsDecode
  decide

namespace Machine

/-- A value of a declared width, sign-extended to a word and cut to W bits, is sign-extended to W bits (R94). -/
theorem lowBits_signExtend {wi w : Width} (hle : wi.bits ≤ w.bits) (v : Word) :
    lowBits w (signExtend wi v) = ((v.setWidth wi.bits).signExtend w.bits).setWidth 64 := by
  have hext : signExtend wi v = (v.setWidth wi.bits).signExtend 64 := by
    cases wi <;> simp [signExtend, Width.bits, BitVec.setWidth_eq_extractLsb']
  rw [hext, lowBits_eq]
  congr 1
  refine BitVec.eq_of_getLsbD_eq fun b hb => ?_
  have := bits_le w
  simp only [BitVec.getLsbD_setWidth, BitVec.getLsbD_signExtend, hb, show b < 64 by omega, decide_true, Bool.true_and]

/-- Settles O32: the declared width masks the payload, the operand width cuts its sign extension. -/
theorem immediateSourceIsSignExtended : Obligations.ImmediateSourceIsSignExtended := by
  intro s id k nb pay
  refine ⟨fun wi w hnb hle => ⟨_, _, resolve_imm_ok hnb, rfl, ?_⟩, resolve_imm_error⟩
  rw [lowBits_signExtend hle, lowBits_eq, BitVec.setWidth_setWidth_of_le _ (bits_le wi), BitVec.setWidth_eq]

/-- Settles O5: the operation and the width are read back from the command word. -/
theorem engineCommandSelectsOperationAndWidth : Obligations.EngineCommandSelectsOperationAndWidth := by
  refine ⟨fun op => by cases op <;> rfl, fun op w d s => by cases op <;> cases w <;> rfl, fun cmd d s h => ?_⟩
  have hop : opOfBits (cmd.extractLsb' 0 4) = none := by
    generalize cmd.extractLsb' 0 4 = b at h
    fin_cases h <;> rfl
  rw [enginePort, hop]
  rfl

end Machine

end Sys2Proof
end

section
/-! PROOFS. The run loop (60_exceptions.md): a step runs the decoded record, every Running state steps, every finite run
ends, and the invariant is kept. -/

namespace Sys2Proof.Machine

variable {s t u : State} {r : Record} {rest : List Record} {i : Instr} {e : Error} {id : OpcodeId}

/-! ## There is a next state (R95, R111) -/

theorem exists_deliver_next (hs : s.status = .running) (o : Except Error State) : ∃ t, deliver s o = .next t := by
  cases o with
  | ok u => exact ⟨_, deliver_ok hs⟩
  | error e => exact ⟨_, deliver_error hs⟩

theorem exists_exec_next (hs : s.status = .running) (i : Instr) : ∃ t, exec i s = .next t := by
  rw [exec_eq_deliver]
  exact exists_deliver_next hs _

theorem dispatch_of_decode_ok (h : decode r = .ok i) : dispatch r s = exec i s := by rw [dispatch, h]

theorem dispatch_of_decode_error {rej : Reject} (hs : s.status = .running) (h : decode r = .error rej) :
    dispatch r s = .next (s.raise (rejectError rej)) := by
  rw [dispatch, h]
  exact deliver_error hs

theorem exists_dispatch_next (hs : s.status = .running) (r : Record) : ∃ t, dispatch r s = .next t := by
  cases h : decode r with
  | ok i => exact dispatch_of_decode_ok h ▸ exists_exec_next hs i
  | error rej => exact ⟨_, dispatch_of_decode_error hs h⟩

theorem exists_step_next (hs : s.status = .running) : ∃ t, step s = .next t := by
  by_cases hr : s.run = .active
  · cases hc : s.stream with
    | nil => exact ⟨_, step_of_stream_nil hs hr hc⟩
    | cons r rest =>
      obtain ⟨u, hu⟩ := exists_dispatch_next hs r
      exact ⟨_, step_of_stream_cons hs hr hc hu⟩
  · exact ⟨_, step_of_not_active hs hr⟩

/-- Settles O11: a delivered outcome is a next state, and so is a step's, by the place of the run. -/
theorem runningInstanceAlwaysSteps : Obligations.RunningInstanceAlwaysSteps :=
  fun _ hs => ⟨exists_step_next hs, exists_exec_next hs⟩

/-- Settles O6: dispatching the record is running its instruction. -/
theorem stepRunsTheDecodedInstruction : Obligations.StepRunsTheDecodedInstruction := by
  intro s r rest i hs hr hc hd
  obtain ⟨t, ht⟩ := exists_exec_next hs i
  exact ⟨t, ht, step_of_stream_cons hs hr hc ((dispatch_of_decode_ok hd).trans ht)⟩

/-- Settles O7: dispatching the record delivers the error of its rejection. -/
theorem stepRaisesForARecordWithoutARow : Obligations.StepRaisesForARecordWithoutARow := by
  intro s r rest id hs hr hc
  have raises : ∀ rej, decode r = .error rej → step s = .next (afterRecord rest (s.raise (rejectError rej))) :=
    fun rej h => step_of_stream_cons hs hr hc (dispatch_of_decode_error hs h)
  exact ⟨raises _, raises _, raises _⟩

/-! ## The loop's case on an outcome (R195) -/

theorem afterRecord_of_success (h : u.raised = none) : afterRecord rest u = u.continueRun rest := by
  simp only [afterRecord, h]

theorem afterRecord_of_category (h : u.raised = some e) (hc : e.category = .recoverable ∨ e.category = .defect) :
    afterRecord rest u = u.stopRun e := by
  rcases hc with hc | hc <;> simp only [afterRecord, h, hc]

theorem afterRecord_of_unimplemented (h : u.raised = some (.unimplementedOpcode id)) :
    afterRecord rest u =
      if u.skipUnimplemented then u.continueRun rest else u.stopRun (.unimplementedOpcode id) := by
  simp only [afterRecord, h, Error.category]

theorem afterRecord_of_normalTermination (h : u.raised = some .normalTermination) :
    afterRecord rest u = u.completeRun := by
  simp only [afterRecord, h, Error.category]

/-- The codes 1, 2, 3 and 5 are those of the errors that stop a run (R181). -/
theorem category_of_code (h : e.code = 1 ∨ e.code = 2 ∨ e.code = 3 ∨ e.code = 5) :
    e.category = .recoverable ∨ e.category = .defect := by
  cases e <;> simp [Error.code, Error.category] at h ⊢

/-- Settles O8: the loop's case, outcome by outcome. -/
theorem runLoopAfterEachOutcome : Obligations.RunLoopAfterEachOutcome := by
  intro rest t
  refine ⟨afterRecord_of_success, fun id h hskip => ?_, fun id h hskip => ?_,
    fun e h hcode => afterRecord_of_category h (category_of_code hcode), afterRecord_of_normalTermination⟩
  · rw [afterRecord_of_unimplemented h, if_pos hskip]; rfl
  · rw [afterRecord_of_unimplemented h, if_neg (by simp [hskip])]; rfl

/-- Settles O9: the two places of a run at which a step runs no record. -/
theorem endOfStreamCompletesAndIdlingChangesNothing : Obligations.EndOfStreamCompletesAndIdlingChangesNothing :=
  fun _ hs => ⟨step_of_stream_nil hs, step_of_not_active hs⟩

/-- Settles O10: a step, a delivered outcome and a host call each look at `status` first. -/
theorem abortedInstanceHasNoStep : Obligations.AbortedInstanceHasNoStep := by
  intro s h
  refine ⟨by simp only [step, h], fun i => by rw [exec_eq_deliver, deliver_aborted h], ?_⟩
  exact ⟨fun _ _ => hostCall_aborted h, fun _ _ _ => hostCall_aborted h, fun _ _ => hostCall_aborted h,
    fun _ _ => hostCall_aborted h, fun _ _ _ => hostCall_aborted h, hostCall_aborted h,
    fun _ => hostCall_aborted h, fun _ _ _ => hostCall_aborted h, hostCall_aborted h⟩

/-! ## A finite run ends (R195, D11) -/

/-- What a dispatched record leaves of the run, and that only a defect aborts. -/
theorem dispatch_keeps (h : dispatch r s = .next u) :
    u.run = s.run ∧ u.index = s.index ∧ u.stream = s.stream
      ∧ (u.status = .aborted ↔ ∃ which id, u.raised = some (.defect which id)) := by
  obtain ⟨hs, ⟨i, v, -, hv, rfl⟩ | ⟨e, rfl⟩⟩ := dispatch_next h
  · have keeps := handlerKeeps_formOutcome hv
    exact ⟨keeps.run, keeps.index, keeps.stream, by simp [keeps.status, hs]⟩
  · refine ⟨rfl, rfl, rfl, ?_⟩
    rw [State.raise_status, hs, statusAfter_eq_aborted, State.raise_raised]
    simp

/-- A step on a record leaves the run over, or going on, Running, with the rest of the stream. -/
theorem step_of_record (hs : s.status = .running) (hr : s.run = .active) (hc : s.stream = r :: rest) :
    ∃ t, step s = .next t ∧ (t.run ≠ .active ∨ t.status = .running ∧ t.run = .active ∧ t.stream = rest) := by
  obtain ⟨u, hu⟩ := exists_dispatch_next hs r
  obtain ⟨hrun, -, -, habort⟩ := dispatch_keeps hu
  refine ⟨_, step_of_stream_cons hs hr hc hu, ?_⟩
  rcases afterRecord_cases rest u with ⟨h, hraised⟩ | h | ⟨e, -, h⟩ <;> rw [h]
  · refine .inr ⟨?_, hrun.trans hr, rfl⟩
    rw [State.continueRun_status]
    cases hst : u.status with
    | running => rfl
    | aborted =>
      obtain ⟨which, id, hdefect⟩ := habort.mp hst
      obtain hnone | ⟨_, hunimpl⟩ := hraised
      · rw [hnone] at hdefect; cases hdefect
      · rw [hunimpl] at hdefect; cases hdefect
  · exact .inl nofun
  · exact .inl nofun

/-- Settles O12, by induction on the records left. -/
theorem everyRunOfAFiniteStreamEnds : Obligations.EveryRunOfAFiniteStreamEnds := by
  intro s hs hr
  generalize hc : s.stream = records
  induction records generalizing s with
  | nil =>
    exact ⟨1, s.completeRun, Nat.le_refl _, core_run_succ (step_of_stream_nil hs hr hc), nofun⟩
  | cons r rest ih =>
    obtain ⟨t, ht, hover | ⟨hts, htr, htc⟩⟩ := step_of_record hs hr hc
    · exact ⟨1, t, Nat.le_add_left _ _, core_run_succ ht, hover⟩
    · obtain ⟨k, v, hk, hv, hover⟩ := ih t hts htr htc
      exact ⟨k + 1, v, Nat.succ_le_succ hk, (core_run_succ ht).trans hv, hover⟩

/-! ## The invariant (R35, R36, R192, R195) -/

theorem dispatch_wf (hm : s.mem.wf = true) (h : dispatch r s = .next u) : u.mem.wf = true := by
  obtain ⟨-, ⟨i, v, -, hv, rfl⟩ | ⟨e, rfl⟩⟩ := dispatch_next h
  · exact (handlerKeeps_formOutcome hv).wf hm
  · exact hm

/-- The loop's case on the outcome of a run going on: it stops or completes at the loop's index, with the error
raised. -/
theorem consistent_afterRecord (hm : u.mem.wf = true) (hr : u.run = .active)
    (habort : u.status = .aborted ↔ ∃ which id, u.raised = some (.defect which id)) :
    Consistent (afterRecord rest u) := by
  rcases afterRecord_cases rest u with ⟨h, -⟩ | h | ⟨e, he, h⟩ <;> rw [h]
  · exact ⟨hm, habort, fun i e hstop => by simp [hr] at hstop, fun k hk => by simp [hr] at hk⟩
  · exact ⟨hm, habort, nofun, fun k hk => by cases hk; rfl⟩
  · exact ⟨hm, habort, fun i e' hstop => by cases hstop; exact ⟨rfl, he⟩, nofun⟩

/-- Settles O13: an idle step changes nothing, the end of the stream names the index, and a record's step keeps the
invariant through what dispatching it leaves. -/
theorem stepKeepsConsistent : Obligations.StepKeepsConsistent := by
  intro s t hcons h
  obtain ⟨hm, habort, -, -⟩ := id hcons
  obtain ⟨-, ⟨-, rfl⟩ | ⟨-, -, rfl⟩ | ⟨hr, r, rest, u, -, hu, rfl⟩⟩ := step_next h
  · exact hcons
  · exact ⟨hm, habort, nofun, fun k hk => by cases hk; rfl⟩
  · obtain ⟨hrun, -, -, hdefect⟩ := dispatch_keeps hu
    exact consistent_afterRecord (dispatch_wf hm hu) (hrun.trans hr) hdefect

/-- Settles O14: nothing is stored, nothing was raised, no run is over. -/
theorem resetIsConsistent : Obligations.ResetIsConsistent := by
  refine ⟨rfl, ?_, nofun, nofun⟩
  simp [State.reset]

/-- Settles O15: the fields of the state after reset. -/
theorem resetLeavesZerosAndNothingInitialised : Obligations.ResetLeavesZerosAndNothingInitialised := by
  refine ⟨fun i => ?_, rfl, fun a => rfl, rfl, rfl, rfl⟩
  simp [State.reset, State.reg]

end Sys2Proof.Machine
end

section
/-! PROOFS. Errors (60_exceptions.md): what an instruction that raises leaves, which errors there are, and the rows that
have no handler. -/

namespace Sys2Proof.Machine

variable {s t : State} {i : Instr} {e : Error} {id : OpcodeId} {op : EngineOp} {w : Width} {f : Fields}

/-! ## What an instruction that raises leaves (R187, R191, R192) -/

/-- An instruction that raised took the error and did nothing else. -/
theorem eq_raise_of_raised (h : exec i s = .next t) (he : t.raised = some e) :
    s.status = .running ∧ formOutcome s i.form = .error e ∧ t = s.raise e := by
  obtain ⟨hs, ⟨u, -, rfl⟩ | ⟨e', he', rfl⟩⟩ := exec_next h
  · cases he
  · cases he; exact ⟨hs, he', rfl⟩

/-- Settles O19: the state after is the state before with the error taken. -/
theorem errorsLeaveTheInstanceUntouched : Obligations.ErrorsLeaveTheInstanceUntouched := by
  intro i s t e h he
  obtain ⟨hs, -, rfl⟩ := eq_raise_of_raised h he
  refine ⟨⟨rfl, rfl, rfl⟩, ⟨rfl, rfl, rfl, rfl, rfl⟩, ?_⟩
  rw [State.raise_status, hs, statusAfter_eq_aborted]

theorem HandlerKeeps.sameLoop (h : HandlerKeeps s t) : SameLoop s t :=
  ⟨h.stream, h.index, h.run, h.skipUnimplemented, h.hosted⟩

/-- Settles O20: a handler that succeeds or raises does the same at another place of the stream, and keeps the place. -/
theorem noInstructionTouchesTheStreamPosition : Obligations.NoInstructionTouchesTheStreamPosition := by
  intro i s t rs n h
  obtain ⟨hs, ⟨u, hu, rfl⟩ | ⟨e, he, rfl⟩⟩ := exec_next h
  · refine ⟨(handlerKeeps_formOutcome hu).sameLoop, ?_⟩
    obtain ⟨d, m, -, -, hflags, hother, -⟩ := formOutcome_withOther_ok hu
    rw [exec_eq_deliver, show formOutcome { s with stream := rs, index := n } i.form = _ from hother s.flags rs n,
      deliver_ok (s := { s with stream := rs, index := n }) hs, ← hflags]
    rfl
  · refine ⟨⟨rfl, rfl, rfl, rfl, rfl⟩, ?_⟩
    rw [exec_eq_deliver,
      show formOutcome { s with stream := rs, index := n } i.form = _ from formOutcome_withOther_error s.flags rs n he,
      deliver_error (s := { s with stream := rs, index := n }) hs]
    rfl

/-! ## Which errors a handler raises (R182 to R186, R188) -/

/-- Every error that the sequence can raise has the property. -/
def RaisesOnly {α : Type} (p : Error → Prop) (x : Except Error α) : Prop := ∀ e, x = .error e → p e

theorem RaisesOnly.bind {α β : Type} {p : Error → Prop} {x : Except Error α} {k : α → Except Error β}
    (hx : RaisesOnly p x) (hk : ∀ a, RaisesOnly p (k a)) : RaisesOnly p (x >>= k) := fun e h =>
  (bind_error h).elim (hx e) fun ⟨a, _, h⟩ => hk a e h

theorem raisesOnly_ok {α : Type} {p : Error → Prop} (a : α) : RaisesOnly p (.ok a) := nofun

theorem raisesOnly_check {p : Error → Prop} (c : Bool) (h : p e) : RaisesOnly p (check c e) := fun _ hc =>
  (check_error hc).2 ▸ h

/-- Any error but the one that says the program has finished. -/
abbrev NotFinished (e : Error) : Prop := e ≠ .normalTermination

theorem resolve_notFinished (k : Nat) (d : Desc) : RaisesOnly NotFinished (s.resolve id k d) := fun e h => by
  rcases resolve_error h with ⟨_, rfl⟩ | rfl <;> nofun

theorem opRead_notFinished (o : Operand) : RaisesOnly NotFinished (s.opRead id o w) := fun e h => by
  rcases opRead_error h with ⟨_, _, -, -, rfl⟩ | ⟨_, -, rfl⟩ <;> nofun

theorem opWrite_notFinished (o : Operand) (v : Word) : RaisesOnly NotFinished (s.opWrite id o w v) := fun e h => by
  rcases opWrite_error h with ⟨_, _, -, -, rfl⟩ | ⟨_, -, rfl⟩ | ⟨_, _, -, rfl⟩ <;> nofun

theorem commit_notFinished (o : Operand) (out : EngineOut) : RaisesOnly NotFinished (s.commit id o w out) :=
  fun e h => opWrite_notFinished _ _ e (commit_error h)

theorem shiftOperands_notFinished (shape : ShiftShape) : RaisesOnly NotFinished (s.shiftOperands id shape w f) :=
  fun e h => by
  rcases shiftOperands_error h with ⟨_, rfl⟩ | h | h
  · nofun
  · exact resolve_notFinished _ _ e h
  · exact resolve_notFinished _ _ e h

theorem stackOperand_notFinished : RaisesOnly NotFinished (s.stackOperand id w f) := fun e h => by
  rcases stackOperand_error h with ⟨_, rfl⟩ | h
  · nofun
  · exact resolve_notFinished _ _ e h

theorem exec2_notFinished (shape : AluShape) : RaisesOnly NotFinished (exec2 op shape w f s) :=
  .bind (raisesOnly_check _ nofun) fun _ => .bind (raisesOnly_check _ nofun) fun _ =>
    .bind (raisesOnly_check _ nofun) fun _ => .bind (resolve_notFinished _ _) fun _ =>
      .bind (resolve_notFinished _ _) fun _ => .bind (raisesOnly_check _ nofun) fun _ =>
        .bind (opRead_notFinished _) fun _ => .bind (opRead_notFinished _) fun _ => commit_notFinished _ _

theorem execShift_notFinished (shape : ShiftShape) : RaisesOnly NotFinished (execShift op shape w f s) :=
  .bind (shiftOperands_notFinished shape) fun _ => .bind (opRead_notFinished _) fun _ => commit_notFinished _ _

theorem pushHandler_notFinished : RaisesOnly NotFinished (pushHandler w f s) :=
  .bind stackOperand_notFinished fun _ => .bind (opRead_notFinished _) fun _ =>
    .bind (fun _ h => by rw [(memWrite_error h).2]; nofun) fun _ => raisesOnly_ok _

theorem popHandler_notFinished : RaisesOnly NotFinished (popHandler w f s) :=
  .bind stackOperand_notFinished fun _ => .bind (fun _ h => by rw [(memRead_error h).2]; nofun) fun _ =>
    opWrite_notFinished _ _

theorem formOutcome_notFinished (F : Form) : RaisesOnly NotFinished (formOutcome s F) := by
  cases F with
  | alu2 => exact exec2_notFinished _
  | shift => exact execShift_notFinished _
  | push => exact pushHandler_notFinished
  | pop => exact popHandler_notFinished
  | _ => intro e h; cases h; nofun

/-- Settles O21: no handler and no refused row raises it. -/
theorem noInstructionRaisesNormalTermination : Obligations.NoInstructionRaisesNormalTermination := by
  intro i s t h he
  obtain ⟨-, herr, -⟩ := eq_raise_of_raised h he
  exact formOutcome_notFinished i.form _ herr rfl

/-! ## A well-formed instruction with a handler (R96, R182) -/

/-- An error that an access to uninitialised bytes raises (R182). -/
def IsUninitializedAccess (e : Error) : Prop := ∃ addr n access, e = .uninitializedAccess addr n access

@[simp] theorem isRegOrMem_reg (r : RegIdx) (w : Width) : (Operand.reg r w).isRegOrMem w = true := beq_self_eq_true w

theorem memRead_uninitialized (addr : Word) : RaisesOnly IsUninitializedAccess (s.memRead addr w) := fun _ h =>
  ⟨_, _, _, (memRead_error h).2⟩

theorem memWrite_uninitialized (addr v : Word) : RaisesOnly IsUninitializedAccess (s.memWrite addr w v) := fun _ h =>
  ⟨_, _, _, (memWrite_error h).2⟩

theorem opRead_uninitialized {o : Operand} (ho : o.isRegOrMem w = true ∨ ∃ v nb, o = .imm v nb) :
    RaisesOnly IsUninitializedAccess (s.opRead id o w) := fun e h => by
  rcases opRead_error h with ⟨j, wr, rfl, hne, -⟩ | ⟨ea, -, rfl⟩
  · obtain ho | ⟨_, _, ho⟩ := ho
    · exact absurd (eq_of_beq ho) hne
    · cases ho
  · exact ⟨_, _, _, rfl⟩

theorem opWrite_uninitialized {o : Operand} (ho : o.isRegOrMem w = true) (v : Word) :
    RaisesOnly IsUninitializedAccess (s.opWrite id o w v) := fun e h => by
  rcases opWrite_error h with ⟨j, wr, rfl, hne, -⟩ | ⟨ea, -, rfl⟩ | ⟨u, nb, rfl, -⟩
  · exact absurd (eq_of_beq ho) hne
  · exact ⟨_, _, _, rfl⟩
  · cases ho

theorem commit_uninitialized {o : Operand} (ho : o.isRegOrMem w = true) (out : EngineOut) :
    RaisesOnly IsUninitializedAccess (s.commit id o w out) := fun e h =>
  opWrite_uninitialized ho _ e (commit_error h)

theorem exec2_uninitialized {shape : AluShape} (hwf : (Form.alu2 op shape w f).wellFormed = true) :
    RaisesOnly IsUninitializedAccess (exec2 op shape w f s) := by
  obtain ⟨h2, hr0, hr1⟩ := header_wellFormed hwf
  obtain ⟨dst, src, hd, hsrc, hfit⟩ := resolve_wellFormed (s := s) hwf (aluId op shape w)
  obtain ⟨hdst, hsource⟩ := kinds_of_fits2 hfit
  simp only [exec2, h2, check_true, ok_bind, checkReserved_of hr0, checkReserved_of hr1, hd, hsrc, hfit]
  exact .bind (opRead_uninitialized (.inl hdst)) fun _ => .bind (opRead_uninitialized hsource) fun _ =>
    commit_uninitialized hdst _

theorem execShift_uninitialized {shape : ShiftShape} (hwf : (Form.shift op shape w f).wellFormed = true) :
    RaisesOnly IsUninitializedAccess (execShift op shape w f s) := by
  obtain ⟨dst, craw, hops⟩ := shiftOperands_wellFormed (s := s) (id := shiftId op shape w) hwf
  obtain ⟨-, hdst⟩ := shiftOperands_ok hops
  simp only [execShift, hops, ok_bind]
  exact .bind (opRead_uninitialized (.inl hdst)) fun _ => commit_uninitialized hdst _

/-- The checks of a well-formed PUSH or POP pass, and its operand is a register view of width W. -/
theorem exists_stackOperand (h : (f.opcount == 1 && f.slot0.reserved == 0 && w.isStackWidth
    && f.slot0.desc.isReg w) = true) (id : OpcodeId) : ∃ r, s.stackOperand id w f = .ok (.reg r w) := by
  simp only [Bool.and_eq_true] at h
  obtain ⟨⟨⟨h1, h2⟩, -⟩, h3⟩ := h
  obtain ⟨r, nb, hd, -⟩ := resolve_isReg (s := s) (id := id) (k := 0) h3
  exact ⟨r, stackOperand_of h1 h2 h3 hd⟩

theorem pushHandler_uninitialized (hwf : (Form.push w f).wellFormed = true) :
    RaisesOnly IsUninitializedAccess (pushHandler w f s) := by
  obtain ⟨r, hr⟩ := exists_stackOperand (s := s) hwf (stackId .push w)
  simp only [pushHandler, hr, ok_bind]
  exact .bind (opRead_uninitialized (.inl (isRegOrMem_reg r w))) fun _ =>
    .bind (memWrite_uninitialized _ _) fun _ => raisesOnly_ok _

theorem popHandler_uninitialized (hwf : (Form.pop w f).wellFormed = true) :
    RaisesOnly IsUninitializedAccess (popHandler w f s) := by
  obtain ⟨r, hr⟩ := exists_stackOperand (s := s) hwf (stackId .pop w)
  simp only [popHandler, hr, ok_bind]
  exact .bind (memRead_uninitialized _) fun _ => opWrite_uninitialized (isRegOrMem_reg r w) _

/-- Settles O22: template by template, the checks pass and an access alone can fail. -/
theorem wellFormedInstructionRaisesOnlyUninitializedAccess :
    Obligations.WellFormedInstructionRaisesOnlyUninitializedAccess := by
  intro i s t e hwf h32 hunported hreserved h he
  obtain ⟨-, herr, -⟩ := eq_raise_of_raised h he
  rw [Instr.wellFormed] at hwf
  generalize i.form = F at *
  cases F with
  | alu2 => exact exec2_uninitialized hwf e herr
  | shift => exact execShift_uninitialized hwf e herr
  | push => exact pushHandler_uninitialized hwf e herr
  | pop => exact popHandler_uninitialized hwf e herr
  | defect32 op v => exact absurd rfl (h32 op v)
  | unported op v => exact absurd rfl (hunported op v)
  | reserved m v => exact absurd rfl (hreserved m v)

/-! ## Rows without a handler (R90, R93, R95) -/

/-- Settles O53: dispatch delivers the error of these rows, whose mnemonic ids are the five reserved ones. -/
theorem unportedAndReservedRowsAreUnimplemented : Obligations.UnportedAndReservedRowsAreUnimplemented := by
  intro i s hs
  refine ⟨fun op v hi => ?_, fun m v hi => ⟨by simpa using mnemonic_of_reserved hi, ?_⟩⟩
  · rw [exec_of_form hi, formOutcome, deliver_error hs]
  · rw [exec_of_form hi, formOutcome, deliver_error hs]

end Sys2Proof.Machine
end

section
/-! PROOFS. Registers and memory (10_state.md, 20_memory.md): aliased views, and what a read gives and a write
stores, byte by byte. -/

namespace Sys2Proof.Machine

variable {s t : State} {addr u v : Word} {w : Width} {m : Memory} {n : Nat}

/-! ## Aliased views (R28) -/

/-- Every bit of a view read after a view of the same cell was written. -/
theorem getLsbD_regRead_regWrite (s : State) (i : RegIdx) (wn ww : Width) (v : Word) {k : Nat} (hk : k < ww.bits) :
    ((s.regWrite i wn v).regRead i ww).getLsbD k =
      if k < wn.bits then v.getLsbD k else decide (wn ≠ .w32) && (s.reg i).getLsbD k := by
  rw [State.regRead, reg_regWrite_same, getLsbD_lowBits, getLsbD_writeView]
  simp [hk]

/-- Settles O25: bit by bit, the value below the width written and the cell above it. -/
theorem narrowWriteIsSeenByWiderRead : Obligations.NarrowWriteIsSeenByWiderRead := by
  intro s i v
  refine ⟨fun wn ww hwn _ k hk => ?_, ?_⟩
  · rw [getLsbD_regRead_regWrite s i wn ww v hk]
    rcases hwn with rfl | rfl <;> simp
  · rw [State.regRead, reg_regWrite_same]
    simp [lowBits, writeView, BitVec.setWidth_eq_extractLsb']

/-! ## Bytes of a value -/

/-- Byte k of a value as the number's eight bits from 8k on. -/
theorem extractLsb'_byte (v : Word) (k : Nat) : v.extractLsb' (8 * k) 8 = BitVec.ofNat 8 (v.toNat >>> (8 * k)) := rfl

theorem accessible_iff_isInit :
    m.accessible addr n = true ↔ addr.toNat + n ≤ 2 ^ 64 ∧ ∀ a, InSpan addr n a → m.isInit a = true :=
  accessible_iff

/-- A read gives the value whose bytes stand in memory (R54). -/
theorem memRead_of_bytes (hv : v.toNat < 2 ^ w.bits) (hin : addr.toNat + w.bytes ≤ 2 ^ 64)
    (h : ∀ k, k < w.bytes → s.mem.read (addr.toNat + k) = some (v.extractLsb' (8 * k) 8)) :
    s.memRead addr w = .ok v := by
  have hbyte : ∀ a, addr.toNat ≤ a → a < addr.toNat + w.bytes →
      s.mem.read a = some (v.extractLsb' (8 * (a - addr.toNat)) 8) := fun a h1 h2 => by
    rw [← h (a - addr.toNat) (by omega), Nat.add_sub_cancel' h1]
  have hacc : s.mem.accessible addr w.bytes = true :=
    accessible_iff.mpr ⟨hin, fun a ha => by rw [hbyte a ha.1 ha.2]; rfl⟩
  rw [State.memRead, if_pos hacc, Memory.readLE_of_bytes (v := v.toNat) hbyte, ← bits_eq, Nat.mod_eq_of_lt hv,
    BitVec.ofNat_toNat, BitVec.setWidth_eq]

/-- The bytes of a value read are those that stand in memory (R54). -/
theorem read_of_memRead (h : s.memRead addr w = .ok v) {k : Nat} (hk : k < w.bytes) :
    s.mem.read (addr.toNat + k) = some (v.extractLsb' (8 * k) 8) := by
  obtain ⟨hacc, -⟩ := memRead_ok h
  obtain ⟨b, hb⟩ := Option.isSome_iff_exists.mp
    ((accessible_iff.mp hacc).2 (addr.toNat + k) ⟨Nat.le_add_right _ _, by omega⟩)
  rw [extractLsb'_byte, memRead_toNat h, Memory.readLE_byte hk, hb, Option.getD_some]

/-- A write in an accessible span stores the value's bytes and nothing else (R55). -/
theorem read_of_memWrite (hm : s.mem.wf = true) (h : s.memWrite addr w v = .ok t) :
    (∀ k, k < w.bytes → t.mem.read (addr.toNat + k) = some (v.extractLsb' (8 * k) 8))
      ∧ ∀ a, ¬ InSpan addr w.bytes a → t.mem.read a = s.mem.read a := by
  obtain ⟨hacc, rfl⟩ := memWrite_ok h
  have hread := fun b => Memory.read_writeLE (v := v.toNat) b (accessible_iff.mp hacc).1 hm
  refine ⟨fun k hk => ?_, fun a ha => ?_⟩
  · rw [hread, if_pos ⟨Nat.le_add_right _ _, by omega⟩, Nat.add_sub_cancel_left]; rfl
  · exact (hread a).trans (if_neg ha)

theorem accessible_eq_false
    (h : ¬ (addr.toNat + n ≤ 2 ^ 64 ∧ ∀ a, InSpan addr n a → m.isInit a = true)) : m.accessible addr n = false :=
  Bool.eq_false_iff.mpr (mt accessible_iff_isInit.mp h)

theorem memRead_eq_error (h : s.mem.accessible addr w.bytes = false) :
    s.memRead addr w = .error (.uninitializedAccess addr w.bytes .read) := by
  rw [State.memRead, h]; rfl

theorem memWrite_eq_error (h : s.mem.accessible addr w.bytes = false) :
    s.memWrite addr w v = .error (.uninitializedAccess addr w.bytes .write) := by
  rw [State.memWrite, h]; rfl

theorem memWrite_of_accessible (h : s.mem.accessible addr w.bytes = true) :
    s.memWrite addr w v = .ok { s with mem := s.mem.writeLE addr.toNat v.toNat w.bytes } := if_pos h

/-- Settles O26: the access is inside and initialised, or it is refused. -/
theorem memReadIsLittleEndianOverInitialisedBytes : Obligations.MemReadIsLittleEndianOverInitialisedBytes := by
  intro s addr w
  refine ⟨fun h => ?_, fun h => memRead_eq_error (accessible_eq_false h)⟩
  have hread : s.memRead addr w = .ok _ := if_pos (accessible_iff_isInit.mpr h)
  refine ⟨_, hread, ?_, fun k => read_of_memRead hread⟩
  rw [memRead_toNat hread, bits_eq]
  exact Memory.readLE_lt _ _ _

/-- Settles O27: the access is inside and initialised, or it is refused. -/
theorem memWriteTouchesExactlyItsSpan : Obligations.MemWriteTouchesExactlyItsSpan := by
  intro s addr w v hm
  refine ⟨fun h => ?_, fun h => memWrite_eq_error (accessible_eq_false h)⟩
  have hwrite := memWrite_of_accessible (v := v) (accessible_iff_isInit.mpr h)
  obtain ⟨hin, hout⟩ := read_of_memWrite hm hwrite
  exact ⟨_, hwrite, hin, hout, rfl⟩

/-! ## Mixed widths (R59) -/

/-- A narrower read inside an eight-byte write gives that part of the value. -/
theorem memRead_part_of_write (hm : s.mem.wf = true) (h : s.memWrite addr .w64 v = .ok t) {k : Nat}
    (hk : k + w.bytes ≤ 8) :
    t.memRead (addr + BitVec.ofNat 64 k) w = .ok ((v.extractLsb' (8 * k) w.bits).setWidth 64) := by
  obtain ⟨hstored, -⟩ := read_of_memWrite hm h
  obtain ⟨hacc, -⟩ := memWrite_ok h
  have htop : addr.toNat + 8 ≤ 2 ^ 64 := (accessible_iff.mp hacc).1
  have hpos := bytes_pos w
  have haddr : (addr + BitVec.ofNat 64 k).toNat = addr.toNat + k := by
    rw [BitVec.toNat_add, BitVec.toNat_ofNat]; omega
  have hbits := bits_eq w
  refine memRead_of_bytes ?_ (by omega) fun j hj => ?_
  · rw [BitVec.toNat_setWidth]
    exact (Nat.mod_le _ _).trans_lt (BitVec.isLt _)
  · rw [haddr, Nat.add_assoc, hstored (k + j) (show k + j < 8 by omega)]
    refine congrArg some (BitVec.eq_of_getLsbD_eq fun b hb => ?_)
    simp only [BitVec.getLsbD_extractLsb', BitVec.getLsbD_setWidth, hb, decide_true, Bool.true_and,
      show 8 * j + b < 64 by omega, show 8 * j + b < w.bits by omega]
    congr 1
    omega

/-- A one-byte write over an eight-byte location replaces its low byte. -/
theorem memRead_after_byte_write (hm : s.mem.wf = true) (hu : s.memRead addr .w64 = .ok u)
    (h : s.memWrite addr .w8 v = .ok t) : t.memRead addr .w64 = .ok (u.extractLsb' 8 56 ++ v.extractLsb' 0 8) := by
  obtain ⟨hin, hout⟩ := read_of_memWrite hm h
  obtain ⟨hacc, -⟩ := memRead_ok hu
  refine memRead_of_bytes (BitVec.isLt _) (accessible_iff.mp hacc).1 fun k hk => ?_
  cases k with
  | zero => rw [hin 0 (by decide)]; exact congrArg some (extractLsb'_append_last _ (v.extractLsb' 0 8)).symm
  | succ k =>
    rw [hout _ (fun hspan => by have := hspan.2; simp only [Width.bytes] at this; omega), read_of_memRead hu hk]
    have hk' : k + 1 < 8 := hk
    refine congrArg some (BitVec.eq_of_getLsbD_eq fun b hb => ?_)
    simp only [BitVec.getLsbD_extractLsb', BitVec.getLsbD_append, hb, decide_true, Bool.true_and,
      show ¬ 8 * (k + 1) + b < 8 by omega, if_false, show 8 * (k + 1) + b - 8 < 56 by omega]
    congr 1
    omega

/-- Settles O28: four parts of the write, then the byte written over. -/
theorem mixedWidthAccessesAgree : Obligations.MixedWidthAccessesAgree := by
  intro s t addr v hm
  refine ⟨fun h => ⟨?_, ?_, ?_, ?_⟩, fun u hu h => memRead_after_byte_write hm hu h⟩
  · simpa [Width.bits] using memRead_part_of_write (w := .w8) (k := 0) hm h (by decide)
  · exact memRead_part_of_write (w := .w8) (k := 1) hm h (by decide)
  · simpa [Width.bits] using memRead_part_of_write (w := .w16) (k := 0) hm h (by decide)
  · exact memRead_part_of_write (w := .w32) (k := 4) hm h (by decide)

/-- Settles O29: the range is inside the address space and filled with zeros, or refused. -/
theorem initRegionMakesItsRangeValidAndZero : Obligations.InitRegionMakesItsRangeValidAndZero := by
  intro s addr n hm
  exact ⟨fun h => ⟨_, if_pos h, fun a ha => (Memory.read_zeroFill a h hm).trans (if_pos ha),
    fun a ha => (Memory.read_zeroFill a h hm).trans (if_neg ha), rfl⟩, fun h => if_neg (Nat.not_le.mpr h)⟩

end Sys2Proof.Machine
end

section
/-! PROOFS. The flag engine (40_flag_engine.md, 41_add_sub_cmp.md, 42_logical.md): `set` inside `def`, SUB and CMP, the
logical operations, and an operand that is source and destination. -/

namespace Sys2Proof.Machine

variable {s t : State} {id : OpcodeId} {i : Instr} {op : EngineOp} {w : Width} {f : Fields} {a b : Word}

/-! ## `set` inside `def` (R98, R110) -/

/-- Every position of FLAGS is that of one of the six flags or none of theirs. -/
theorem flag_or_other (k : Nat) : (∃ g : Flag, k = g.bit) ∨ k ∉ [0, 2, 4, 6, 7, 11] := by
  by_cases h : k ∈ [0, 2, 4, 6, 7, 11]
  · left
    fin_cases h
    exacts [⟨.cf, rfl⟩, ⟨.pf, rfl⟩, ⟨.af, rfl⟩, ⟨.zf, rfl⟩, ⟨.sf, rfl⟩, ⟨.of, rfl⟩]
  · exact .inr h

/-- A mask of flags lies inside another when each of its flags does. -/
theorem inside_of_flags {d m : Word} (hm : SixOnly m)
    (h : ∀ g : Flag, m.getLsbD g.bit = true → d.getLsbD g.bit = true) :
    m &&& ~~~d = 0 := by
  refine BitVec.eq_of_getLsbD_eq fun k hk => ?_
  simp only [BitVec.getLsbD_and, BitVec.getLsbD_not, hk, decide_true, Bool.true_and, BitVec.ofNat_eq_ofNat,
    BitVec.getLsbD_zero]
  obtain ⟨g, rfl⟩ | hother := flag_or_other k
  · cases hg : m.getLsbD g.bit with
    | false => rfl
    | true => rw [h g hg]; rfl
  · rw [hm k hother]; rfl

/-- A counted operation sets only flags it writes when it does so at every count. -/
theorem afeCounted_set_of_def {shift : Nat → Nat → Nat → EngineOut} {n d craw : Nat} {g : Flag}
    (h : ∀ c, (shift n d c).setMask.getLsbD g.bit = true → (shift n d c).defMask.getLsbD g.bit = true)
    (hg : (afeCounted shift n d craw).setMask.getLsbD g.bit = true) :
    (afeCounted shift n d craw).defMask.getLsbD g.bit = true := by
  unfold afeCounted at hg ⊢
  split at hg
  · simp [afeZeroCount] at hg
  · rw [if_neg ‹_›]
    exact h _ hg

theorem afe_set_of_def (op : EngineOp) (w : Width) (d s : Word) (g : Flag)
    (h : (afe op w d s).setMask.getLsbD g.bit = true) : (afe op w d s).defMask.getLsbD g.bit = true := by
  have logic : ∀ r, (afeLogic w.bits r).setMask.getLsbD g.bit = true →
      (afeLogic w.bits r).defMask.getLsbD g.bit = true := by
    intro r hr
    cases g <;> simp [afeLogic] at hr ⊢
  cases op with
  | add => exact getLsbD_all6 g
  | sub => exact getLsbD_all6 g
  | cmp => exact getLsbD_all6 g
  | or => exact logic _ h
  | and => exact logic _ h
  | xor => exact logic _ h
  | rol => exact afeCounted_set_of_def (fun c hc => by cases g <;> simp [afeRol] at hc ⊢; exact hc.1) h
  | ror => exact afeCounted_set_of_def (fun c hc => by cases g <;> simp [afeRor] at hc ⊢; exact hc.1) h
  | shl => exact afeCounted_set_of_def (fun c hc => by cases g <;> simp [afeShl] at hc ⊢ <;> exact hc.1) h
  | shr => exact afeCounted_set_of_def (fun c hc => by cases g <;> simp [afeShr] at hc ⊢ <;> exact hc.1) h
  | sar => exact afeCounted_set_of_def (fun c hc => by cases g <;> simp [afeSar] at hc ⊢) h

/-- Settles O35: flag by flag for the flags, and no other bit stands in a mask. -/
theorem engineSetsOnlyFlagsItWrites : Obligations.EngineSetsOnlyFlagsItWrites := by
  intro op w d s
  obtain ⟨hd, hm⟩ := afe_sixOnly op w d s
  exact ⟨inside_of_flags hm (afe_set_of_def op w d s), inside_of_flags hd fun g _ => getLsbD_all6 g⟩

/-! ## SUB and CMP (R112 to R114, R116, R118, R120, R131, R132) -/

/-- SF, ZF, PF, CF, OF and AF are those of the difference of `a` and `b` (R131). -/
def DifferenceFlags (w : Width) (a b : Word) (t : State) : Prop :=
  ResultFlags w (atWidth w a - atWidth w b) t
    ∧ (t.flag .cf = true ↔ a.toNat < b.toNat)
    ∧ (t.flag .of = true ↔
      (atWidth w a).msb ≠ (atWidth w b).msb ∧ (atWidth w a - atWidth w b).msb ≠ (atWidth w a).msb)
    ∧ (t.flag .af = true ↔ a.toNat % 16 < b.toNat % 16)

/-- On W-bit operands the engine subtracts them as they are. -/
theorem afe_sub (ha : a.toNat < 2 ^ w.bits) (hb : b.toNat < 2 ^ w.bits) :
    afe .sub w a b = afeSub w.bits a.toNat b.toNat := by
  rw [afe, lowBits_of_lt ha, lowBits_of_lt hb]

/-- The engine compares with the masks of a subtraction (R132). -/
theorem afe_cmp_masks (w : Width) (a b : Word) :
    (afe .cmp w a b).defMask = (afe .sub w a b).defMask ∧ (afe .cmp w a b).setMask = (afe .sub w a b).setMask :=
  ⟨rfl, rfl⟩

/-- The overflow of a subtraction by the top bits of the operands and of the difference (R118). -/
theorem overflowSub_iff (x y : BitVec w.bits) :
    overflowSub x.toNat y.toNat (x - y).toNat w.bits = true ↔ x.msb ≠ y.msb ∧ (x - y).msb ≠ x.msb := by
  simp only [overflowSub, testBit_msb, Bool.and_eq_true, bne_iff_ne]

theorem differenceFlags_of_flags (ha : a.toNat < 2 ^ w.bits) (hb : b.toNat < 2 ^ w.bits)
    (h : t.flags = mergeFlags s.flags (afe .sub w a b).defMask (afe .sub w a b).setMask) :
    DifferenceFlags w a b t := by
  have hdiff := trunc_sub ha hb
  rw [afe_sub ha hb] at h
  obtain ⟨hresult, hcf, hof, haf⟩ := arithFlags_of_flags hdiff h
  refine ⟨hresult, ?_, ?_, ?_⟩
  · rw [hcf, carrySub_iff ha hb]
  · rw [hof, hdiff, ← overflowSub_iff, atWidth_toNat ha, atWidth_toNat hb]
  · rw [haf, auxSub_iff]

/-- A subtraction writes the difference back, and its flags are those of the difference (R131). -/
theorem sub_next {shape : AluShape} {dst src : Operand} (hi : i.form = .alu2 .sub shape w f)
    (hops : AluOperands .sub shape w f s dst src a b) :
    ∃ t, exec i s = .next t ∧ WritesBack (aluId .sub shape w) dst w (atWidth w a - atWidth w b) s t
      ∧ DifferenceFlags w a b t ∧ OtherFlagBitsKept s t := by
  obtain ⟨-, -, -, -, hreadA, hreadB⟩ := id hops
  have ha := opRead_lt hreadA
  have hb := opRead_lt hreadB
  obtain ⟨t, hexec, hraised, hflags, hwrite, -⟩ := alu2_next hi hops
  refine ⟨t, hexec, ⟨hraised, ?_⟩, differenceFlags_of_flags ha hb hflags, otherFlagBitsKept_of_flags hflags⟩
  rw [← hwrite (by decide), afe_sub ha hb, afeSub, ofNat_eq_setWidth (trunc_sub ha hb)]

/-- Settles O37: the engine's truncated difference is the difference of W-bit words, and each flag's formula is its
definition. -/
theorem subWritesTheDifferenceAndSixFlags : Obligations.SubWritesTheDifferenceAndSixFlags := by
  intro i shape w f s dst src a b hi hops
  obtain ⟨t, hexec, hwb, ⟨hresult, hcf, hof, haf⟩, hother⟩ := sub_next hi hops
  exact ⟨t, hexec, hwb, hresult, hcf, hof.trans (overflow_sub_iff _ _), haf, hother⟩

/-- A compare changes FLAGS and the outcome only, and its flags are those of the difference (R132). -/
theorem cmp_next {shape : AluShape} {dst src : Operand} (hi : i.form = .alu2 .cmp shape w f)
    (hops : AluOperands .cmp shape w f s dst src a b) :
    ∃ t, exec i s = .next t ∧ t = { s with flags := t.flags, raised := none } ∧ DifferenceFlags w a b t
      ∧ OtherFlagBitsKept s t := by
  obtain ⟨-, -, -, -, hreadA, hreadB⟩ := id hops
  obtain ⟨t, hexec, -, hflags, -, hkept⟩ := alu2_next hi hops
  have hother := otherFlagBitsKept_of_flags hflags
  rw [(afe_cmp_masks w a b).1, (afe_cmp_masks w a b).2] at hflags
  exact ⟨t, hexec, hkept rfl, differenceFlags_of_flags (opRead_lt hreadA) (opRead_lt hreadB) hflags, hother⟩

/-- Settles O38: the flags of the difference, and nothing written back. -/
theorem cmpWritesOnlyTheFlagsOfTheDifference : Obligations.CmpWritesOnlyTheFlagsOfTheDifference := by
  intro i shape w f s dst src a b hi hops
  obtain ⟨t, hexec, hkept, ⟨hresult, hcf, hof, haf⟩, hother⟩ := cmp_next hi hops
  exact ⟨t, hexec, hkept, hresult, hcf, hof.trans (overflow_sub_iff _ _), haf, hother⟩

/-- Signed order by the top bits: the difference's sign, corrected where the subtraction overflows. -/
theorem toInt_lt_iff (x y : BitVec w.bits) :
    x.toInt < y.toInt ↔ ((x - y).msb = true ↔ ¬ (x.msb ≠ y.msb ∧ (x - y).msb ≠ x.msb)) := by
  rw [toInt_eq x, toInt_eq y, BitVec.msb_eq_decide, BitVec.msb_eq_decide, BitVec.msb_eq_decide, BitVec.toNat_sub]
  have hx := x.isLt
  have hy := y.isLt
  rw [two_pow_bits] at hx hy ⊢
  rw [show ((2 : Int) ^ (w.bits - 1)) = ((2 ^ (w.bits - 1) : Nat) : Int) by push_cast; rfl]
  generalize 2 ^ (w.bits - 1) = p at *
  generalize x.toNat = d at *
  generalize y.toNat = e at *
  have hm : (2 * p - e + d) % (2 * p) = if d < e then 2 * p - e + d else d - e := by
    split
    · exact Nat.mod_eq_of_lt (by omega)
    · rw [Nat.mod_eq_sub_mod (by omega), Nat.mod_eq_of_lt (by omega)]
      omega
  rw [hm]
  simp only [ne_eq, decide_eq_decide, decide_eq_true_eq]
  split <;> split <;> split <;> omega

/-- Settles O39: each order by the flag of the difference that says it. -/
theorem cmpFlagsOrderTheOperands : Obligations.CmpFlagsOrderTheOperands := by
  intro i shape w f s dst src a b hi hops
  obtain ⟨-, -, -, -, hreadA, hreadB⟩ := id hops
  have ha := atWidth_toNat (opRead_lt hreadA)
  have hb := atWidth_toNat (opRead_lt hreadB)
  obtain ⟨t, hexec, -, ⟨⟨hsf, hzf, -⟩, hcf, hof, -⟩, -⟩ := cmp_next hi hops
  refine ⟨t, hexec, ?_, ?_, ?_⟩
  · rw [hcf, BitVec.lt_def, ha, hb]
  · rw [hzf, sub_eq_zero, BitVec.toNat_eq, BitVec.toNat_eq, ha, hb]
  · rw [toInt_lt_iff, ← hof, ← hsf]
    cases t.flag .sf <;> cases t.flag .of <;> simp

/-! ## AND, OR, XOR (R140 to R142) -/

/-- The flags of a logical operation: SF, ZF and PF from the result, CF and OF 0, AF kept. -/
theorem logicFlags_of_flags {r : Nat} {x : BitVec w.bits} (hr : r = x.toNat)
    (h : t.flags = mergeFlags s.flags (afeLogic w.bits r).defMask (afeLogic w.bits r).setMask) :
    ResultFlags w x t ∧ t.flag .cf = false ∧ t.flag .of = false ∧ t.flag .af = s.flag .af := by
  subst hr
  have hflag := flag_of_flags h
  simp only [afeLogic, getLsbD_logicDef, getLsbD_szp] at hflag
  exact ⟨resultFlags_of (by simp [hflag]) (by simp [hflag]) (by simp [hflag]), by simp [hflag], by simp [hflag],
    by simp [hflag]⟩

/-- On W-bit operands the engine's logical operations are those of W-bit words. -/
theorem afe_logic {r : BitVec w.bits} (ha : a.toNat < 2 ^ w.bits) (hb : b.toNat < 2 ^ w.bits)
    (h : (op = .and ∧ r = atWidth w a &&& atWidth w b) ∨ (op = .or ∧ r = atWidth w a ||| atWidth w b)
      ∨ (op = .xor ∧ r = atWidth w a ^^^ atWidth w b)) :
    afe op w a b = afeLogic w.bits r.toNat := by
  rcases h with ⟨rfl, rfl⟩ | ⟨rfl, rfl⟩ | ⟨rfl, rfl⟩
  · rw [afe, lowBits_of_lt ha, lowBits_of_lt hb, BitVec.toNat_and, atWidth_toNat ha, atWidth_toNat hb]
  · rw [afe, lowBits_of_lt ha, lowBits_of_lt hb, BitVec.toNat_or, atWidth_toNat ha, atWidth_toNat hb]
  · rw [afe, lowBits_of_lt ha, lowBits_of_lt hb, BitVec.toNat_xor, atWidth_toNat ha, atWidth_toNat hb]

/-- Settles O40: the result is that of the W-bit words, and the masks are those of a logical operation. -/
theorem logicWritesTheResultAndClearsCarryAndOverflow :
    Obligations.LogicWritesTheResultAndClearsCarryAndOverflow := by
  intro i op shape w f s dst src a b r hr hi hops
  obtain ⟨-, -, -, -, hreadA, hreadB⟩ := id hops
  have hlogic := afe_logic (opRead_lt hreadA) (opRead_lt hreadB) hr
  have hop : op ≠ .cmp := by rcases hr with ⟨rfl, -⟩ | ⟨rfl, -⟩ | ⟨rfl, -⟩ <;> decide
  obtain ⟨t, hexec, hraised, hflags, hwrite, -⟩ := alu2_next hi hops
  have hother := otherFlagBitsKept_of_flags hflags
  rw [hlogic] at hflags hwrite
  obtain ⟨hresult, hcf, hof, haf⟩ := logicFlags_of_flags rfl hflags
  refine ⟨t, hexec, ⟨hraised, ?_⟩, hresult, hcf, hof, haf, hother⟩
  rw [← hwrite hop, afeLogic, ofNat_eq_setWidth rfl]

/-! ## One register view as source and destination (R125) -/

variable {r : RegIdx} {nb nb0 nb1 : BitVec 4} {o : Operand}

/-- A register descriptor that resolves and reads at width W is that register's view (R84, R66). -/
theorem operand_of_reg {k : Nat} (hr : s.resolve id k (.reg r nb) = .ok o) (hread : s.opRead id o w = .ok a) :
    o = .reg r w ∧ a = s.regRead r w := by
  obtain ⟨_, _, _, hd, -, rfl⟩ | ⟨_, _, _, _, hd, -⟩ | ⟨_, _, _, hd, -, -⟩ := resolve_ok hr <;> cases hd
  obtain ⟨_, ho, rfl⟩ | ⟨_, ho, -⟩ | ⟨_, _, ho, -⟩ := opRead_ok hread <;> cases ho
  exact ⟨rfl, rfl⟩

/-- Both operands are the register's old value. -/
theorem aluOperands_of_sameReg {shape : AluShape} (hwf : (Form.alu2 op shape w f).wellFormed = true)
    (hs : s.status = .running) (h0 : f.slot0.desc = .reg r nb0) (h1 : f.slot1.desc = .reg r nb1) :
    AluOperands op shape w f s (.reg r w) (.reg r w) (s.regRead r w) (s.regRead r w) := by
  obtain ⟨dst, src, a, b, hops⟩ := exists_aluOperands hwf hs (by simp [h0]) (by simp [h1])
  obtain ⟨-, -, hd, hsrc, ha, hb⟩ := id hops
  rw [h0] at hd
  rw [h1] at hsrc
  obtain ⟨rfl, rfl⟩ := operand_of_reg hd ha
  obtain ⟨rfl, rfl⟩ := operand_of_reg hsrc hb
  exact hops

/-- A write of a view looks at the value's low W bits only (R24 to R26). -/
theorem writeView_congr {old x y : Word} (h : atWidth w x = atWidth w y) : writeView w old x = writeView w old y := by
  refine BitVec.eq_of_getLsbD_eq fun k _ => ?_
  rw [getLsbD_writeView, getLsbD_writeView]
  by_cases hk : k < w.bits
  · have hbit := congrArg (BitVec.getLsbD · k) h
    simp only [BitVec.getLsbD_setWidth, hk, decide_true, Bool.true_and] at hbit
    rw [if_pos hk, if_pos hk, hbit]
  · rw [if_neg hk, if_neg hk]

/-- The registers after a result was written back to a register view, by any word with the result's W bits. -/
theorem regs_of_writesBack {v : BitVec w.bits} {x : Word} (h : WritesBack id (.reg r w) w v s t)
    (hx : atWidth w x = v) : t.regs = (s.regWrite r w x).regs := by
  obtain ⟨-, hwrite⟩ := h
  have hreg : s.opWrite id (.reg r w) w (v.setWidth 64) = .ok (s.regWrite r w (v.setWidth 64)) := if_pos rfl
  have hback : atWidth w (v.setWidth 64) = v := by
    rw [atWidth, BitVec.setWidth_setWidth_of_le _ (bits_le w), BitVec.setWidth_eq]
  have hregs : s.regWrite r w (v.setWidth 64) = { t with flags := s.flags, raised := s.raised } :=
    Except.ok.inj (hreg.symm.trans hwrite)
  have hsame : s.regWrite r w x = s.regWrite r w (v.setWidth 64) := by
    rw [State.regWrite, State.regWrite, writeView_congr (hx.trans hback.symm)]
  rw [hsame, hregs]

theorem atWidth_regRead (s : State) (r : RegIdx) (w : Width) : atWidth w (s.regRead r w) = atWidth w (s.reg r) := by
  rw [State.regRead, lowBits_eq, atWidth, BitVec.setWidth_setWidth_of_le _ (bits_le w), BitVec.setWidth_eq]

theorem atWidth_double (a : Word) : atWidth w (BitVec.ofNat 64 (2 * a.toNat)) = atWidth w a + atWidth w a := by
  rw [atWidth, BitVec.setWidth_ofNat_of_le (bits_le w), two_mul, BitVec.ofNat_add, BitVec.ofNat_toNat]

/-- ZF, PF and SF of the result 0. -/
theorem resultFlags_zero (h : ResultFlags w 0 t) : t.flag .zf = true ∧ t.flag .pf = true ∧ t.flag .sf = false := by
  obtain ⟨hsf, hzf, hpf⟩ := h
  exact ⟨hzf.mpr rfl, hpf.mpr (by simp), by simp [hsf]⟩

/-- The flags of a value's difference from itself. -/
theorem differenceFlags_self (h : DifferenceFlags w a a t) :
    (t.flag .zf = true ∧ t.flag .pf = true ∧ t.flag .cf = false ∧ t.flag .sf = false ∧ t.flag .of = false)
      ∧ t.flag .af = false := by
  obtain ⟨hresult, hcf, hof, haf⟩ := h
  rw [sub_self] at hresult
  obtain ⟨hzf, hpf, hsf⟩ := resultFlags_zero hresult
  exact ⟨⟨hzf, hpf, by simpa using hcf, hsf, by simpa using hof⟩, by simpa using haf⟩

/-- Settles O41: both operands are the old value, and each operation's own statement says what becomes of it. -/
theorem sameRegisterTwiceUsesTheOldValueForBoth : Obligations.SameRegisterTwiceUsesTheOldValueForBoth := by
  intro i op shape w f s r nb0 nb1 _ hi hwf hs h0 h1
  rw [Instr.wellFormed, hi] at hwf
  have hops := aluOperands_of_sameReg hwf hs h0 h1
  have hx := atWidth_regRead s r w
  cases op with
  | add =>
    obtain ⟨t, hexec, hwb, -⟩ := addWritesTheSumAndSixFlags i shape w f s _ _ _ _ hi hops
    exact ⟨t, hexec, hwb.1, fun _ => regs_of_writesBack hwb (atWidth_double _), by simp⟩
  | or =>
    obtain ⟨t, hexec, hwb, hresult, -⟩ :=
      logicWritesTheResultAndClearsCarryAndOverflow i .or shape w f s _ _ _ _ _ (.inr (.inl ⟨rfl, rfl⟩)) hi hops
    rw [BitVec.or_self] at hwb hresult
    exact ⟨t, hexec, hwb.1, nofun, by simp, fun _ => ⟨regs_of_writesBack hwb rfl, hx ▸ hresult⟩, by simp⟩
  | and =>
    obtain ⟨t, hexec, hwb, hresult, -⟩ :=
      logicWritesTheResultAndClearsCarryAndOverflow i .and shape w f s _ _ _ _ _ (.inl ⟨rfl, rfl⟩) hi hops
    rw [BitVec.and_self] at hwb hresult
    exact ⟨t, hexec, hwb.1, nofun, by simp, fun _ => ⟨regs_of_writesBack hwb rfl, hx ▸ hresult⟩, by simp⟩
  | sub =>
    obtain ⟨t, hexec, hwb, hflags, -⟩ := sub_next hi hops
    rw [sub_self] at hwb
    obtain ⟨hfive, haf⟩ := differenceFlags_self hflags
    exact ⟨t, hexec, hwb.1, nofun, fun _ => regs_of_writesBack hwb (by simp), by simp, nofun, fun _ => hfive,
      fun _ => haf⟩
  | xor =>
    obtain ⟨t, hexec, hwb, hresult, hcf, hof, -⟩ :=
      logicWritesTheResultAndClearsCarryAndOverflow i .xor shape w f s _ _ _ _ _ (.inr (.inr ⟨rfl, rfl⟩)) hi hops
    rw [BitVec.xor_self] at hwb hresult
    obtain ⟨hzf, hpf, hsf⟩ := resultFlags_zero hresult
    exact ⟨t, hexec, hwb.1, nofun, fun _ => regs_of_writesBack hwb (by simp), by simp, nofun,
      fun _ => ⟨hzf, hpf, hcf, hsf, hof⟩, by simp⟩
  | cmp =>
    obtain ⟨t, hexec, hkept, hflags, -⟩ := cmp_next hi hops
    obtain ⟨hfive, haf⟩ := differenceFlags_self hflags
    exact ⟨t, hexec, by rw [hkept], nofun, by simp, by simp, fun _ => by rw [hkept], fun _ => hfive, fun _ => haf⟩
  | rol | ror | shl | shr | sar => exact absurd (op_of_alu2 hi) (by simp)

end Sys2Proof.Machine
end

section
/-! PROOFS. Shifts and rotates (43_shift_rotate.md): the raw count, the zero count, and the five operations at a
count of at least 1. -/

namespace Sys2Proof.Machine

variable {s t : State} {id : OpcodeId} {i : Instr} {op : EngineOp} {shape : ShiftShape} {w : Width} {f : Fields}
  {dst : Operand} {a craw : Word} {r : RegIdx} {c : Nat}

/-! ## The raw count (R123, R150) -/

theorem countedOperands_count {rawCount : Operand → Except Error Word}
    (h : s.countedOperands id w f rawCount = .ok (dst, craw)) :
    ∃ cnt, s.resolve id 1 f.slot1.desc = .ok cnt ∧ rawCount cnt = .ok craw := by
  unfold State.countedOperands at h
  obtain ⟨-, -, h⟩ := bind_ok h
  obtain ⟨-, -, h⟩ := bind_ok h
  obtain ⟨-, -, h⟩ := bind_ok h
  obtain ⟨_, -, h⟩ := bind_ok h
  obtain ⟨cnt, hcnt, h⟩ := bind_ok h
  obtain ⟨-, -, h⟩ := bind_ok h
  obtain ⟨_, hcraw, h⟩ := bind_ok h
  cases h
  exact ⟨cnt, hcnt, hcraw⟩

theorem oneOperand_count (h : s.oneOperand id w f = .ok (dst, craw)) : craw = 1 := by
  unfold State.oneOperand at h
  obtain ⟨-, -, h⟩ := bind_ok h
  obtain ⟨-, -, h⟩ := bind_ok h
  obtain ⟨_, -, h⟩ := bind_ok h
  obtain ⟨-, -, h⟩ := bind_ok h
  cases h
  rfl

theorem clCount_ok {cnt : Operand} (h : s.clCount id cnt = .ok craw) : craw = s.regRead .rcx .w8 := by
  unfold State.clCount at h
  split at h <;> cases h
  rfl

theorem immCount_ok {cnt : Operand} (h : immCount id cnt = .ok craw) : cnt = .imm craw .w8 := by
  cases cnt with
  | imm v nb =>
    simp only [immCount] at h
    split at h <;> cases h
    subst_vars
    rfl
  | reg => cases h
  | mem => cases h

/-- Only an immediate descriptor resolves to an immediate, masked to its width (R86). -/
theorem desc_of_resolve_imm {k : Nat} {d : Desc} {v : Word} {wi : Width} (h : s.resolve id k d = .ok (.imm v wi)) :
    ∃ nb pay, d = .imm nb pay ∧ v = lowBits wi pay := by
  obtain ⟨_, _, _, -, -, ho⟩ | ⟨_, _, _, _, -, ho⟩ | ⟨nb, _, pay, hd, -, ho⟩ := resolve_ok h <;> cases ho
  exact ⟨nb, pay, hd, rfl⟩

/-- Settles O42: the operands of a well-formed shift are there, and the count is read shape by shape. -/
theorem shiftCountIsOneClOrTheByte : Obligations.ShiftCountIsOneClOrTheByte := by
  intro op shape w f s hwf
  obtain ⟨dst, craw, hops⟩ := shiftOperands_wellFormed (s := s) (id := shiftId op shape w) hwf
  refine ⟨dst, craw, hops, (shiftOperands_ok hops).1, ?one, ?cl, ?imm⟩ <;> rintro rfl
  case one => exact oneOperand_count hops
  case cl =>
    obtain ⟨_, -, hcl⟩ := countedOperands_count hops
    rw [clCount_ok hcl, State.regRead, lowBits_toNat]
    rfl
  case imm =>
    obtain ⟨_, hcnt, himm⟩ := countedOperands_count hops
    obtain ⟨nb, pay, hd, hv⟩ := desc_of_resolve_imm (immCount_ok himm ▸ hcnt)
    refine ⟨nb, pay, hd, ?_⟩
    rw [hv, lowBits_toNat]
    rfl

/-! ## The zero count (R156) -/

/-- On a W-bit operand the engine shifts by the effective count, the zero count apart (R150, R156). -/
theorem afeCounted_eq {shift : Nat → Nat → Nat → EngineOut} (ha : a.toNat < 2 ^ w.bits) :
    afeCounted shift w.bits (lowBits w a).toNat (lowBits .w8 craw).toNat =
      if effectiveCount w craw = 0 then afeZeroCount a.toNat else shift w.bits a.toNat (effectiveCount w craw) := by
  rw [afeCounted, maskedCount_lowBits, lowBits_of_lt ha]

theorem afe_zeroCount (hop : op = .rol ∨ op = .ror ∨ op = .shl ∨ op = .shr ∨ op = .sar) (ha : a.toNat < 2 ^ w.bits)
    (hc : effectiveCount w craw = 0) : afe op w a craw = afeZeroCount a.toNat := by
  rcases hop with rfl | rfl | rfl | rfl | rfl <;> exact (afeCounted_eq ha).trans (if_pos hc)

/-- A value shifted by nothing is written back as it is. -/
theorem ofNat_toNat_atWidth (ha : a.toNat < 2 ^ w.bits) : BitVec.ofNat 64 a.toNat = (atWidth w a).setWidth 64 :=
  ofNat_eq_setWidth (atWidth_toNat ha).symm

/-- Writing a view's own value changes no cell, a 32-bit view apart (R24 to R26). -/
theorem writeView_self (hw : w ≠ .w32) (v : Word) : writeView w v v = v := by
  refine BitVec.eq_of_getLsbD_eq fun k _ => ?_
  rw [getLsbD_writeView]
  simp [hw]

theorem regWrite_self (hw : w ≠ .w32) (s : State) (r : RegIdx) : s.regWrite r w (s.reg r) = s := by
  rw [State.regWrite, writeView_self hw]
  simp [State.setReg, State.reg]

/-- Settles O43: the engine's zero count writes no flag and gives the value, which a register view holds already. -/
theorem zeroCountWritesBackAndKeepsFlags : Obligations.ZeroCountWritesBackAndKeepsFlags := by
  intro i op shape w f s dst a craw hi hops hc
  obtain ⟨-, -, -, hread⟩ := id hops
  have ha := opRead_lt hread
  obtain ⟨t, hexec, hraised, hflags, hwrite⟩ := shift_next hi hops (op_ne_cmp_of_shift hi)
  rw [afe_zeroCount (op_of_shift hi) ha hc] at hflags hwrite
  have hwb : WritesBack (shiftId op shape w) dst w (atWidth w a) s t :=
    ⟨hraised, by rw [← hwrite, afeZeroCount, ofNat_toNat_atWidth ha]⟩
  have hregs : ∀ r, dst = .reg r w → t.regs = (s.regWrite r w (s.reg r)).regs := by
    rintro r rfl
    obtain ⟨_, ho, rfl⟩ | ⟨_, ho, -⟩ | ⟨_, _, ho, -⟩ := opRead_ok hread <;> cases ho
    exact regs_of_writesBack hwb (atWidth_regRead s r w).symm
  refine ⟨t, hexec, hflags.trans (mergeFlags_zero _), hwb, fun r hr hw => ?_, fun r hr hw => ?_⟩
  · subst hw
    have hreg : t.reg r = (s.regWrite r .w32 (s.reg r)).reg r := by rw [State.reg, hregs r hr]; rfl
    rw [hreg, reg_regWrite_same]
    rfl
  · rw [hregs r hr, regWrite_self hw]

/-! ## SHL, SHR and SAR (R151 to R153) -/

/-- A shift or rotate by at least 1: the operation's result written back, its masks merged. -/
theorem shift_by_count {shift : Nat → Nat → Nat → EngineOut} (hi : i.form = .shift op shape w f)
    (hops : ShiftOperands op shape w f s dst a craw)
    (hafe : afe op w a craw = afeCounted shift w.bits (lowBits w a).toNat (lowBits .w8 craw).toNat)
    (hc : c = effectiveCount w craw) (h1 : 1 ≤ c) :
    ∃ t, exec i s = .next t ∧ t.raised = none ∧ a.toNat < 2 ^ w.bits
      ∧ t.flags = mergeFlags s.flags (shift w.bits a.toNat c).defMask (shift w.bits a.toNat c).setMask
      ∧ s.opWrite (shiftId op shape w) dst w (shift w.bits a.toNat c).result
          = .ok { t with flags := s.flags, raised := s.raised }
      ∧ OtherFlagBitsKept s t := by
  obtain ⟨-, -, -, hread⟩ := id hops
  have ha := opRead_lt hread
  obtain ⟨t, hexec, hraised, hflags, hwrite⟩ := shift_next hi hops (op_ne_cmp_of_shift hi)
  have hother := otherFlagBitsKept_of_flags hflags
  rw [hafe, afeCounted_eq ha, if_neg (by omega), ← hc] at hflags hwrite
  exact ⟨t, hexec, hraised, ha, hflags, hwrite, hother⟩

/-- The flags of SHL and SHR: SF, ZF and PF of the result, CF and OF written on a condition each, AF kept. -/
theorem shiftFlags_of_flags {x : BitVec w.bits} {n : Nat} {p q : Prop} [Decidable p] [Decidable q]
    {carry overflow : Bool} (hn : n = x.toNat)
    (h : t.flags = mergeFlags s.flags (szpDef ||| Flag.cf.onlyIf (decide p) ||| Flag.of.onlyIf (decide q))
      (szp n w.bits ||| Flag.cf.onlyIf (decide p && carry) ||| Flag.of.onlyIf (decide q && overflow))) :
    ResultFlags w x t ∧ t.flag .cf = (if p then carry else s.flag .cf)
      ∧ t.flag .of = (if q then overflow else s.flag .of) ∧ t.flag .af = s.flag .af := by
  subst hn
  have hflag := flag_of_flags h
  simp only [BitVec.getLsbD_or, getLsbD_szpDef, getLsbD_szp, getLsbD_onlyIf] at hflag
  refine ⟨resultFlags_of (by simp [hflag]) (by simp [hflag]) (by simp [hflag]), ?_, ?_, by simp [hflag]⟩
  · by_cases hp : p <;> simp [hflag, hp]
  · by_cases hq : q <;> simp [hflag, hq]

/-- The top bit of a W-bit value, as the engine reads it. -/
theorem testBit_top (ha : a.toNat < 2 ^ w.bits) : a.toNat.testBit (w.bits - 1) = (atWidth w a).msb := by
  rw [← testBit_msb, atWidth_toNat ha]

/-- Settles O44: the truncated shift is the shift of the W-bit word; CF and OF are written on their conditions. -/
theorem shlShiftsLeft : Obligations.ShlShiftsLeft := by
  intro i shape w f s dst a craw c hi hops hc h1
  obtain ⟨t, hexec, hraised, ha, hflags, hwrite, hother⟩ := shift_by_count hi hops rfl hc h1
  have hresult := trunc_shiftLeft (c := c) ha
  obtain ⟨hszp, hcf, hof, haf⟩ := shiftFlags_of_flags hresult hflags
  refine ⟨t, hexec, ⟨hraised, ?_⟩, hszp, hcf, ?_, haf, hother⟩
  · rw [← hwrite, afeShl, ofNat_eq_setWidth hresult]
  · rw [hof, hresult, testBit_msb, testBit_top ha]

/-- Settles O45: the shift of the number is the shift of the W-bit word; CF and OF are written on their conditions. -/
theorem shrShiftsRightWithZeros : Obligations.ShrShiftsRightWithZeros := by
  intro i shape w f s dst a craw c hi hops hc h1
  obtain ⟨t, hexec, hraised, ha, hflags, hwrite, hother⟩ := shift_by_count hi hops rfl hc h1
  have hresult := shiftRight_atWidth (c := c) ha
  obtain ⟨hszp, hcf, hof, haf⟩ := shiftFlags_of_flags hresult hflags
  refine ⟨t, hexec, ⟨hraised, ?_⟩, hszp, hcf, ?_, haf, hother⟩
  · rw [← hwrite, afeShr, ofNat_eq_setWidth hresult]
  · rw [hof, testBit_top ha]

/-- The flags of SAR: CF is always written, OF becomes 0 on its condition. -/
theorem sarFlags_of_flags {x : BitVec w.bits} {n : Nat} {q : Prop} [Decidable q] {carry : Bool} (hn : n = x.toNat)
    (h : t.flags = mergeFlags s.flags (szpDef ||| Flag.cf.mask ||| Flag.of.onlyIf (decide q))
      (szp n w.bits ||| Flag.cf.onlyIf carry)) :
    ResultFlags w x t ∧ t.flag .cf = carry ∧ t.flag .of = (if q then false else s.flag .of)
      ∧ t.flag .af = s.flag .af := by
  subst hn
  have hflag := flag_of_flags h
  simp only [BitVec.getLsbD_or, getLsbD_szpDef, getLsbD_szp, getLsbD_onlyIf, getLsbD_mask] at hflag
  refine ⟨resultFlags_of (by simp [hflag]) (by simp [hflag]) (by simp [hflag]), by simp [hflag], ?_, by simp [hflag]⟩
  by_cases hq : q <;> simp [hflag, hq]

/-- Settles O46: the floor division of the signed reading is the arithmetic shift of the W-bit word. -/
theorem sarShiftsRightWithTheSign : Obligations.SarShiftsRightWithTheSign := by
  intro i shape w f s dst a craw c hi hops hc h1
  obtain ⟨t, hexec, hraised, ha, hflags, hwrite, hother⟩ := shift_by_count hi hops rfl hc h1
  have hresult := trunc_sint_div (c := c) ha
  obtain ⟨hszp, hcf, hof, haf⟩ := sarFlags_of_flags hresult hflags
  refine ⟨t, hexec, ⟨hraised, ?_⟩, hszp, ?_, hof, haf, hother⟩
  · rw [← hwrite, afeSar, ofNat_eq_setWidth hresult]
  · rw [hcf]
    split
    · rw [min_eq_left (by omega)]; rfl
    · rw [min_eq_right (by omega), testBit_top ha]

/-! ## ROL and ROR (R154, R155) -/

/-- The flags of ROL and ROR: CF is always written, OF on its condition, the others kept. -/
theorem rotateFlags_of_flags {q : Prop} [Decidable q] {carry overflow : Bool}
    (h : t.flags = mergeFlags s.flags (Flag.cf.mask ||| Flag.of.onlyIf (decide q))
      (Flag.cf.onlyIf carry ||| Flag.of.onlyIf (decide q && overflow))) :
    t.flag .cf = carry ∧ t.flag .of = (if q then overflow else s.flag .of) ∧ t.flag .sf = s.flag .sf
      ∧ t.flag .zf = s.flag .zf ∧ t.flag .pf = s.flag .pf ∧ t.flag .af = s.flag .af := by
  have hflag := flag_of_flags h
  simp only [BitVec.getLsbD_or, getLsbD_onlyIf, getLsbD_mask] at hflag
  refine ⟨by simp [hflag], ?_, by simp [hflag], by simp [hflag], by simp [hflag], by simp [hflag]⟩
  by_cases hq : q <;> simp [hflag, hq]

/-- Settles O47: the two shifted parts make the rotated word, whole turns included. -/
theorem rolRotatesLeft : Obligations.RolRotatesLeft := by
  intro i shape w f s dst a craw c hi hops hc h1
  obtain ⟨t, hexec, hraised, ha, hflags, hwrite, hother⟩ := shift_by_count hi hops rfl hc h1
  have hresult := rol_atWidth (c := c) ha
  obtain ⟨hcf, hof, hsf, hzf, hpf, haf⟩ := rotateFlags_of_flags hflags
  refine ⟨t, hexec, ⟨hraised, ?_⟩, ?_, ?_, hsf, hzf, hpf, haf, hother⟩
  · rw [← hwrite, afeRol, ofNat_eq_setWidth hresult]
  · rw [hcf, hresult, BitVec.testBit_toNat]
  · rw [hof, hresult, testBit_msb, BitVec.testBit_toNat]

/-- Settles O48: the two shifted parts make the rotated word, whole turns included. -/
theorem rorRotatesRight : Obligations.RorRotatesRight := by
  intro i shape w f s dst a craw c hi hops hc h1
  obtain ⟨t, hexec, hraised, ha, hflags, hwrite, hother⟩ := shift_by_count hi hops rfl hc h1
  have hresult := ror_atWidth (c := c) ha
  obtain ⟨hcf, hof, hsf, hzf, hpf, haf⟩ := rotateFlags_of_flags hflags
  refine ⟨t, hexec, ⟨hraised, ?_⟩, ?_, ?_, hsf, hzf, hpf, haf, hother⟩
  · rw [← hwrite, afeRor, ofNat_eq_setWidth hresult]
  · rw [hcf, hresult, testBit_msb]
  · rw [hof, hresult, testBit_msb, BitVec.testBit_toNat]

end Sys2Proof.Machine
end

section
/-! PROOFS. PUSH and POP (44_stack.md): what one whose access is granted does to the stack pointer, the data and the
registers. -/

namespace Sys2Proof.Machine

variable {s t : State} {id : OpcodeId} {i : Instr} {r : RegIdx} {w : Width} {f : Fields} {v : Word}

/-- The checks of PUSH and POP pass on their register operand (R170, R171). -/
theorem stackOperand_of_stackOperand (form : Form) (hform : form = .push w f ∨ form = .pop w f)
    (h : StackOperand form f s r) (id : OpcodeId) :
    s.status = .running ∧ w.isStackWidth = true ∧ s.stackOperand id w f = .ok (.reg r w) := by
  obtain ⟨hs, hwf, nb, hd⟩ := h
  have hchecks : (f.opcount == 1 && f.slot0.reserved == 0 && w.isStackWidth && f.slot0.desc.isReg w) = true := by
    rcases hform with rfl | rfl <;> exact hwf
  simp only [Bool.and_eq_true] at hchecks
  obtain ⟨⟨⟨h1, h2⟩, hw⟩, h3⟩ := hchecks
  exact ⟨hs, hw, stackOperand_of h1 h2 h3 hd⟩

/-! ## PUSH (R170, R173) -/

/-- A PUSH whose bytes are accessible stores the register's value at the new stack pointer. -/
theorem push_next (hi : i.form = .push w f) (h : StackOperand (.push w f) f s r)
    (hacc : s.mem.accessible (s.pushAddress w) w.bytes = true) :
    ∃ u, s.memWrite (s.pushAddress w) w (s.regRead r w) = .ok u
      ∧ exec i s = .next (u.setReg .rsp (s.pushAddress w)).succeed := by
  obtain ⟨hs, -, hop⟩ := stackOperand_of_stackOperand _ (.inl rfl) h (stackId .push w)
  have hwrite := memWrite_of_accessible (v := s.regRead r w) hacc
  refine ⟨_, hwrite, ?_⟩
  rw [exec_of_form hi, formOutcome]
  simp only [pushHandler, hop, ok_bind, State.opRead, if_true, hwrite, deliver_ok hs]

/-- The bytes of a view are those of the register. -/
theorem extractLsb'_regRead (s : State) (r : RegIdx) {k : Nat} (hk : k < w.bytes) :
    (s.regRead r w).extractLsb' (8 * k) 8 = (s.reg r).extractLsb' (8 * k) 8 := by
  refine BitVec.eq_of_getLsbD_eq fun b hb => ?_
  have hbits := bits_eq w
  simp only [BitVec.getLsbD_extractLsb', State.regRead, getLsbD_lowBits, show 8 * k + b < w.bits by omega,
    decide_true, Bool.true_and]

/-- Settles O49: the write's bytes, and what moving the stack pointer leaves. -/
theorem pushStoresTheOldValueAtTheNewStackPointer : Obligations.PushStoresTheOldValueAtTheNewStackPointer := by
  intro i w f s r hi h hm hacc
  obtain ⟨u, hwrite, hexec⟩ := push_next hi h hacc
  obtain ⟨hin, hout⟩ := read_of_memWrite hm hwrite
  obtain ⟨-, rfl⟩ := memWrite_ok hwrite
  refine ⟨_, hexec, rfl, State.reg_setReg_same .., State.reg_setReg_same .., fun k hk => ?_, hout,
    fun j hj => State.reg_setReg_ne _ _ _ _ hj, rfl, rfl, rfl, rfl, rfl, rfl, rfl⟩
  exact (hin k hk).trans (congrArg some (extractLsb'_regRead s r hk))

/-! ## POP (R171, R173, C1, C9) -/

/-- A POP whose read is granted moves the stack pointer up and then writes its register. -/
theorem pop_next (hi : i.form = .pop w f) (h : StackOperand (.pop w f) f s r) (hv : s.memRead (s.reg .rsp) w = .ok v) :
    exec i s = .next ((s.setReg .rsp (s.popAddress w)).regWrite r w v).succeed := by
  obtain ⟨hs, -, hop⟩ := stackOperand_of_stackOperand _ (.inr rfl) h (stackId .pop w)
  rw [exec_of_form hi, formOutcome]
  simp only [popHandler, hop, ok_bind, hv, State.opWrite, if_true, deliver_ok hs]

/-- Settles O50: the register written last, over the moved stack pointer. -/
theorem popReadsAtTheOldStackPointer : Obligations.PopReadsAtTheOldStackPointer := by
  intro i w f s r v hi h hv
  obtain ⟨-, hw, -⟩ := stackOperand_of_stackOperand _ (.inr rfl) h (stackId .pop w)
  have hw32 : w ≠ .w32 := by rintro rfl; cases hw
  refine ⟨_, pop_next hi h hv, rfl, fun hr => ?_, fun k _ => ?_, fun j hj hsp => ?_, fun _ => rfl, rfl, rfl, rfl, rfl,
    rfl, rfl, rfl⟩
  · rw [reg_succeed, reg_regWrite_ne _ _ _ hr.symm, State.reg_setReg_same]
    rfl
  · rw [reg_succeed, reg_regWrite_same, getLsbD_writeView, State.reg_setReg]
    simp [hw32, State.popAddress]
  · rw [reg_succeed, reg_regWrite_ne _ _ _ hj, State.reg_setReg_ne _ _ _ _ hsp]

end Sys2Proof.Machine
end

section
/-! PROOFS. Frames (40_flag_engine.md rules R122, R123): what an instruction of the engine that succeeds leaves
unchanged. -/

namespace Sys2Proof.Machine

variable {s t u : State} {id : OpcodeId} {i : Instr} {op : EngineOp} {w : Width} {f : Fields} {dst : Operand}
  {a b : Word} {g : Flag}

/-! ## Flags the engine does not write (R33, D5) -/

/-- A flag that the engine does not write keeps its value. -/
theorem flag_eq_of_not_written (h : t.flags = mergeFlags s.flags (afe op w a b).defMask (afe op w a b).setMask)
    (hdef : (afe op w a b).defMask.getLsbD g.bit = false) : t.flag g = s.flag g := by
  have hset : (afe op w a b).setMask.getLsbD g.bit = false :=
    Bool.eq_false_iff.mpr fun hset => by rw [afe_set_of_def _ _ _ _ _ hset] at hdef; cases hdef
  rw [flag_of_flags h, hdef, hset]
  simp

/-- The logical operations do not write AF. -/
theorem afe_logic_def_af (h : op = .and ∨ op = .or ∨ op = .xor) :
    (afe op w a b).defMask.getLsbD Flag.af.bit = false := by
  rcases h with rfl | rfl | rfl <;> exact getLsbD_logicDef .af

/-- A counted operation writes no flag that it writes at no count. -/
theorem afeCounted_def {shift : Nat → Nat → Nat → EngineOut} {n d craw : Nat}
    (h : ∀ c, (shift n d c).defMask.getLsbD g.bit = false) :
    (afeCounted shift n d craw).defMask.getLsbD g.bit = false := by
  unfold afeCounted
  split
  · exact BitVec.getLsbD_zero
  · exact h _

/-- The rotates write CF and OF only. -/
theorem afe_rotate_def (h : op = .rol ∨ op = .ror) (hcf : g ≠ .cf) (hof : g ≠ .of) :
    (afe op w a b).defMask.getLsbD g.bit = false := by
  have masks : ∀ c : Bool, (Flag.cf.mask ||| Flag.of.onlyIf c).getLsbD g.bit = false := fun c => by
    simp [hcf.symm, hof.symm]
  rcases h with rfl | rfl <;> exact afeCounted_def fun c => masks _

/-- No shift or rotate writes AF. -/
theorem afe_shift_def_af (h : op = .rol ∨ op = .ror ∨ op = .shl ∨ op = .shr ∨ op = .sar) :
    (afe op w a b).defMask.getLsbD Flag.af.bit = false := by
  rcases h with rfl | rfl | rfl | rfl | rfl
  · exact afe_rotate_def (.inl rfl) (by decide) (by decide)
  · exact afe_rotate_def (.inr rfl) (by decide) (by decide)
  · exact afeCounted_def fun c => by simp [afeShl]
  · exact afeCounted_def fun c => by simp [afeShr]
  · exact afeCounted_def fun c => by simp [afeSar]

/-! ## What a commit leaves (R121) -/

/-- A write to an operand changes its register, or the bytes at its address. -/
theorem opWrite_frame {v : Word} (hm : s.mem.wf = true) (h : s.opWrite id dst w v = .ok u) :
    (∀ j, dst ≠ .reg j w → u.reg j = s.reg j)
      ∧ (∀ ea, dst = .mem ea → ∀ a, ¬ InSpan ea w.bytes a → u.mem.read a = s.mem.read a)
      ∧ ((∀ ea, dst ≠ .mem ea) → u.mem = s.mem) := by
  obtain ⟨r, rfl, rfl⟩ | ⟨ea, rfl, hacc, rfl⟩ := opWrite_ok h
  · exact ⟨fun j hj => reg_regWrite_ne _ _ _ fun hjr => hj (hjr ▸ rfl), nofun, fun _ => rfl⟩
  · refine ⟨fun _ _ => rfl, fun ea' he => ?_, fun hne => absurd rfl (hne ea)⟩
    cases he
    exact (read_of_memWrite hm (memWrite_of_accessible hacc)).2

/-- A commit changes nothing but FLAGS without a write-back, else its destination too. -/
theorem commit_frame {out : EngineOut} (hm : s.mem.wf = true) (h : s.commit id dst w out = .ok u) :
    (∀ j, out.wb = false ∨ dst ≠ .reg j w → u.reg j = s.reg j)
      ∧ (∀ ea, dst = .mem ea → ∀ a, ¬ InSpan ea w.bytes a → u.mem.read a = s.mem.read a)
      ∧ ((out.wb = false ∨ ∀ ea, dst ≠ .mem ea) → u.mem = s.mem) := by
  obtain ⟨hwb, v, hv, rfl⟩ | ⟨-, rfl⟩ := commit_ok h
  · obtain ⟨hreg, hspan, hmem⟩ := opWrite_frame hm hv
    have wrote : ¬ out.wb = false := by simp [hwb]
    exact ⟨fun j hj => hreg j (hj.resolve_left wrote), hspan, fun h => hmem (h.resolve_left wrote)⟩
  · exact ⟨fun _ _ => rfl, fun _ _ _ _ => rfl, fun _ => rfl⟩

/-- Settles O54: a success committed the engine's outputs at the destination, and only CMP writes none back. -/
theorem twoOperandInstructionFrame : Obligations.TwoOperandInstructionFrame := by
  intro i op shape w f s t dst hi h he hm hd
  obtain ⟨u, hu, rfl⟩ := formOutcome_of_not_raised h he
  rw [hi] at hu
  obtain ⟨dst', src, a, b, hd', -, -, -, -, hcommit⟩ := exec2_ok hu
  cases hd.symm.trans hd'
  obtain ⟨hreg, hspan, hmem⟩ := commit_frame hm hcommit
  have hflags := (State.succeed_flags u).trans (commit_flags hcommit)
  have keeps := handlerKeeps_commit hcommit
  have hcmp : op = .cmp → (afe op w a b).wb = false := by rintro rfl; rfl
  exact ⟨fun j hj => hreg j (hj.imp_left hcmp), hspan, fun hj a => congrArg (·.read a) (hmem (hj.imp_left hcmp)),
    otherFlagBitsKept_of_flags hflags, fun hop => flag_eq_of_not_written hflags (afe_logic_def_af hop),
    keeps.status, keeps.sameLoop⟩

/-- Settles O55: a success committed the engine's outputs at the destination. -/
theorem shiftInstructionFrame : Obligations.ShiftInstructionFrame := by
  intro i op shape w f s t dst hi h he hm hd
  obtain ⟨u, hu, rfl⟩ := formOutcome_of_not_raised h he
  rw [hi] at hu
  obtain ⟨dst', craw, a, hops, -, hcommit⟩ := execShift_ok hu
  cases hd.symm.trans (shiftOperands_ok hops).1
  obtain ⟨hreg, hspan, hmem⟩ := commit_frame hm hcommit
  have hflags := (State.succeed_flags u).trans (commit_flags hcommit)
  have keeps := handlerKeeps_commit hcommit
  refine ⟨fun j hj => hreg j (.inr hj), hspan, fun hj a => congrArg (·.read a) (hmem (.inr hj)),
    otherFlagBitsKept_of_flags hflags, flag_eq_of_not_written hflags (afe_shift_def_af (op_of_shift hi)), fun hop => ?_,
    keeps.status, keeps.sameLoop⟩
  exact ⟨flag_eq_of_not_written hflags (afe_rotate_def hop (by decide) (by decide)),
    flag_eq_of_not_written hflags (afe_rotate_def hop (by decide) (by decide)),
    flag_eq_of_not_written hflags (afe_rotate_def hop (by decide) (by decide))⟩

end Sys2Proof.Machine
end

section
/-! PROOFS. The order of checks (60_exceptions.md rule R189): each handler by the first check that fails. -/

namespace Sys2Proof.Machine

variable {s : State} {id : OpcodeId} {i : Instr} {op : EngineOp} {w : Width} {f : Fields} {dst src cnt : Operand}
  {e : Error} {r : RegIdx} {ea : Word}

theorem exec_of_error {F : Form} (hi : i.form = F) (hs : s.status = .running) (h : formOutcome s F = .error e) :
    exec i s = .next (s.raise e) := by
  rw [exec_of_form hi, h, deliver_error hs]

/-! ## Checks, one by one (R89, R122) -/

theorem check_eq {n m : BitVec 2} (h : n = m) : check (n == m) e = .ok () := by rw [beq_iff_eq.mpr h]; rfl

theorem check_ne {n m : BitVec 2} (h : n ≠ m) : check (n == m) e = .error e := by
  rw [beq_eq_false_iff_ne.mpr h]; rfl

theorem checkReserved_zero {slot : Slot} (h : slot.reserved = 0) : checkReserved id slot = .ok () :=
  checkReserved_of (beq_iff_eq.mpr h)

theorem checkReserved_ne {slot : Slot} (h : slot.reserved ≠ 0) :
    checkReserved id slot = .error (.defect .reservedBits id) := by
  rw [checkReserved, beq_eq_false_iff_ne.mpr h]; rfl

/-- The checks of two slots fail when one of them has reserved bits. -/
theorem checkReserved_either {α : Type} {k : Except Error α} (h : f.slot0.reserved ≠ 0 ∨ f.slot1.reserved ≠ 0) :
    (checkReserved id f.slot0 >>= fun _ => checkReserved id f.slot1 >>= fun _ => k)
      = .error (.defect .reservedBits id) := by
  by_cases h0 : f.slot0.reserved = 0
  · rw [checkReserved_zero h0, ok_bind, checkReserved_ne (h.resolve_left (not_not.mpr h0)), error_bind]
  · rw [checkReserved_ne h0, error_bind]

theorem opRead_mem_error (h : s.mem.accessible ea w.bytes = false) :
    s.opRead id (.mem ea) w = .error (.uninitializedAccess ea w.bytes .read) := memRead_eq_error h

/-! ## Two operands (R122) -/

/-- A source in memory goes with a register destination (R91). -/
theorem dst_of_fits2_mem {shape : AluShape} (h : fits2 shape w dst (.mem ea) = true) : ∃ j, dst = .reg j w := by
  cases shape <;> simp only [fits2, Operand.isReg, Operand.isImm, Bool.and_false, Bool.false_eq_true,
    Bool.and_eq_true] at h
  cases dst with
  | reg j wr => exact ⟨j, by rw [eq_of_beq h.1]⟩
  | mem => cases h.1
  | imm => cases h.1

/-- Past count and reserved bits both operands are resolved, then their shape is looked at, then they are read. -/
theorem exec2_past_header {shape : AluShape} (hid : id = aluId op shape w) (h : f.opcount = 2)
    (hr0 : f.slot0.reserved = 0) (hr1 : f.slot1.reserved = 0) :
    exec2 op shape w f s = (do
      let dst ← s.resolve id 0 f.slot0.desc
      let src ← s.resolve id 1 f.slot1.desc
      check (fits2 shape w dst src) (.defect .operandShape id)
      let a ← s.opRead id dst w
      let b ← s.opRead id src w
      s.commit id dst w (afe op w a b)) := by
  subst hid
  simp only [exec2, check_eq h, ok_bind, checkReserved_zero hr0, checkReserved_zero hr1]

/-- Settles O56: the handler run up to the check that fails. -/
theorem twoOperandErrorsComeInOrder : Obligations.TwoOperandErrorsComeInOrder := by
  intro i op shape w f s hi hs id
  have raises : ∀ e, exec2 op shape w f s = .error e → exec i s = .next (s.raise e) := fun e => exec_of_error hi hs
  refine ⟨fun h => raises _ ?count, fun h2 hr => raises _ ?reserved, fun h2 hr0 hr1 => ?_⟩
  case count => simp only [exec2, check_ne h, error_bind]; rfl
  case reserved => simp only [exec2, check_eq h2, ok_bind, checkReserved_either hr]; rfl
  rw [exec2_past_header (id := id) rfl h2 hr0 hr1] at raises
  refine ⟨fun e h0 => raises _ ?dst, fun dst h0 => ⟨fun e h1 => raises _ ?src, fun src h1 => ⟨fun hfit =>
    raises _ ?shape, fun ea hfit hmem hacc => raises _ ?readDst, fun ea hfit hmem hacc => raises _ ?readSrc⟩⟩⟩
  case dst => rw [h0]; rfl
  case src => rw [h0, h1]; rfl
  case shape => simp only [h0, h1, ok_bind, hfit, check_false, error_bind]
  case readDst =>
    subst hmem
    simp only [h0, h1, ok_bind, hfit, check_true, opRead_mem_error hacc, error_bind]
  case readSrc =>
    subst hmem
    obtain ⟨j, rfl⟩ := dst_of_fits2_mem hfit
    have hread : s.opRead id (.reg j w) w = .ok _ := if_pos rfl
    simp only [h0, h1, ok_bind, hfit, check_true, hread, opRead_mem_error hacc, error_bind]

/-! ## Shifts (R123) -/

section Shift
variable {shape : ShiftShape}

theorem execShift_of_operands_error (h : s.shiftOperands (shiftId op shape w) shape w f = .error e) :
    execShift op shape w f s = .error e := by
  simp only [execShift, h, error_bind]

theorem shiftOperands_count (h : f.opcount ≠ shape.opcount) :
    s.shiftOperands id shape w f = .error (.defect .operandCount id) := by
  cases shape <;> simp only [ShiftShape.opcount] at h <;>
    simp only [State.shiftOperands, State.oneOperand, State.countedOperands, check_ne h, error_bind]

theorem shiftOperands_reserved (h : f.opcount = shape.opcount)
    (hr : f.slot0.reserved ≠ 0 ∨ (shape ≠ .rm1 ∧ f.slot1.reserved ≠ 0)) :
    s.shiftOperands id shape w f = .error (.defect .reservedBits id) := by
  cases shape with
  | rm1 =>
    have hr0 : f.slot0.reserved ≠ 0 := hr.resolve_right (by simp)
    simp only [ShiftShape.opcount] at h
    simp only [State.shiftOperands, State.oneOperand, check_eq h, ok_bind, checkReserved_ne hr0, error_bind]
  | rmCl | rmImm8 =>
    simp only [ShiftShape.opcount] at h
    simp only [State.shiftOperands, State.countedOperands, check_eq h, ok_bind,
      checkReserved_either (hr.imp_right And.right)]

/-- Past count and reserved bits, `rm_1` resolves its one operand. -/
theorem shiftOperands_rm1 (h : f.opcount = 1) (hr0 : f.slot0.reserved = 0) :
    s.shiftOperands id .rm1 w f = (do
      let dst ← s.resolve id 0 f.slot0.desc
      check (dst.isRegOrMem w) (.defect .operandShape id)
      .ok (dst, 1)) := by
  simp only [State.shiftOperands, State.oneOperand, check_eq h, ok_bind, checkReserved_zero hr0]

/-- How the count operand of a shape gives the raw count. -/
def State.rawCount (s : State) (id : OpcodeId) : ShiftShape → Operand → Except Error Word
  | .rm1, _ => .ok 1
  | .rmCl, cnt => s.clCount id cnt
  | .rmImm8, cnt => immCount id cnt

/-- Past count and reserved bits, `rm_CL` and `rm_imm8` resolve both operands before they look at either shape. -/
theorem shiftOperands_counted (hshape : shape ≠ .rm1) (h : f.opcount = shape.opcount) (hr0 : f.slot0.reserved = 0)
    (hr1 : f.slot1.reserved = 0) :
    s.shiftOperands id shape w f = (do
      let dst ← s.resolve id 0 f.slot0.desc
      let cnt ← s.resolve id 1 f.slot1.desc
      check (dst.isRegOrMem w) (.defect .operandShape id)
      let craw ← s.rawCount id shape cnt
      .ok (dst, craw)) := by
  cases shape with
  | rm1 => exact absurd rfl hshape
  | rmCl | rmImm8 =>
    simp only [ShiftShape.opcount] at h
    simp only [State.shiftOperands, State.countedOperands, check_eq h, ok_bind, checkReserved_zero hr0,
      checkReserved_zero hr1, State.rawCount]

theorem clCount_error (h : cnt ≠ .reg .rcx .w8) : s.clCount id cnt = .error (.defect .operandShape id) := by
  refine if_neg fun hcl => h ?_
  cases cnt with
  | reg j wr =>
    obtain ⟨hj, hw⟩ := (Bool.and_eq_true _ _).mp hcl
    rw [eq_of_beq hj, eq_of_beq hw]
  | mem => cases hcl
  | imm => cases hcl

theorem immCount_error (h : ∀ v, cnt ≠ .imm v .w8) : immCount id cnt = .error (.defect .operandShape id) := by
  cases cnt with
  | imm v nb => exact if_neg fun hnb => h v (by rw [hnb])
  | reg => rfl
  | mem => rfl

/-- A destination or a count operand of the wrong shape (R123). -/
theorem rawCount_shape_error (h : dst.isRegOrMem w = false ∨ (shape = .rmCl ∧ cnt ≠ .reg .rcx .w8)
    ∨ (shape = .rmImm8 ∧ ∀ v, cnt ≠ .imm v .w8)) :
    (check (dst.isRegOrMem w) (.defect .operandShape id) >>= fun _ => s.rawCount id shape cnt >>= fun craw =>
      Except.ok (dst, craw)) = .error (.defect .operandShape id) := by
  cases hdst : dst.isRegOrMem w with
  | false => rw [check_false, error_bind]
  | true =>
    rw [check_true, ok_bind]
    obtain hbad | ⟨rfl, hcl⟩ | ⟨rfl, himm⟩ := h
    · rw [hdst] at hbad; cases hbad
    · rw [State.rawCount, clCount_error hcl, error_bind]
    · rw [State.rawCount, immCount_error himm, error_bind]

end Shift

/-- Settles O57: the operands by the check that fails, then the read of the destination. -/
theorem shiftErrorsComeInOrder : Obligations.ShiftErrorsComeInOrder := by
  intro i op shape w f s hi hs id two
  have raises : ∀ e, s.shiftOperands id shape w f = .error e → exec i s = .next (s.raise e) := fun e h =>
    exec_of_error hi hs (execShift_of_operands_error h)
  refine ⟨fun h => raises _ (shiftOperands_count h), fun h hr => raises _ (shiftOperands_reserved h hr),
    fun h hr0 hr1 => ⟨fun e h0 => raises _ ?dst, fun dst h0 => ⟨fun e htwo h1 => raises _ ?count,
      fun hone hfit => raises _ ?one, fun cnt htwo h1 hbad => raises _ ?shape,
      fun ea hwf hmem hacc => exec_of_error hi hs ?read⟩⟩⟩
  case dst =>
    by_cases hone : shape = .rm1
    · subst hone; rw [shiftOperands_rm1 h hr0, h0]; rfl
    · rw [shiftOperands_counted hone h hr0 (hr1 hone), h0]; rfl
  case count => rw [shiftOperands_counted htwo h hr0 (hr1 htwo), h0, ok_bind, h1]; rfl
  case one => subst hone; rw [shiftOperands_rm1 h hr0, h0, ok_bind, hfit]; rfl
  case shape =>
    rw [shiftOperands_counted htwo h hr0 (hr1 htwo), h0, ok_bind, h1, ok_bind]
    exact rawCount_shape_error hbad
  case read =>
    obtain ⟨dst', craw, hops⟩ := shiftOperands_wellFormed (s := s) (id := shiftId op shape w) hwf
    cases h0.symm.trans (shiftOperands_ok hops).1
    subst hmem
    simp only [formOutcome, execShift, hops, ok_bind, opRead_mem_error hacc, error_bind]

/-! ## PUSH and POP (R170, R171) -/

theorem stackOperand_count (h : f.opcount ≠ 1) : s.stackOperand id w f = .error (.defect .operandCount id) := by
  rw [State.stackOperand, check_ne h, error_bind]

theorem stackOperand_reserved (h : f.opcount = 1) (hr : f.slot0.reserved ≠ 0) :
    s.stackOperand id w f = .error (.defect .reservedBits id) := by
  rw [State.stackOperand, check_eq h, ok_bind, checkReserved_ne hr, error_bind]

/-- Past count and reserved bits the operand is resolved, then its shape is looked at. -/
theorem stackOperand_past_header (h : f.opcount = 1) (hr : f.slot0.reserved = 0) :
    s.stackOperand id w f = (do
      let o ← s.resolve id 0 f.slot0.desc
      check (o.isReg w) (.defect .operandShape id)
      .ok o) := by
  rw [State.stackOperand, check_eq h, ok_bind, checkReserved_zero hr, ok_bind]

theorem isReg_eq_false {o : Operand} (h : ∀ r, o ≠ .reg r w) : o.isReg w = false := by
  cases o with
  | reg r wr => exact beq_eq_false_iff_ne.mpr fun hw => h r (by rw [hw])
  | mem => rfl
  | imm => rfl

/-- The form of PUSH or of POP. -/
def StackOp.form : StackOp → Width → Fields → Form
  | .push => .push
  | .pop => .pop

theorem formOutcome_of_stackOperand_error (op : StackOp) (h : s.stackOperand (stackId op w) w f = .error e) :
    formOutcome s (StackOp.form op w f) = .error e := by
  cases op <;> simp only [StackOp.form, formOutcome, pushHandler, popHandler, h, error_bind]

/-- Settles O58: the operand by the check that fails, then the access. -/
theorem stackErrorsComeInOrder : Obligations.StackErrorsComeInOrder := by
  intro i op w f s hform hs id
  have hi : i.form = StackOp.form op w f := by rcases hform with ⟨rfl, h⟩ | ⟨rfl, h⟩ <;> exact h
  have raises : ∀ e, s.stackOperand id w f = .error e → exec i s = .next (s.raise e) := fun e h =>
    exec_of_error hi hs (formOutcome_of_stackOperand_error op h)
  refine ⟨fun h => raises _ (stackOperand_count h), fun h hr => raises _ (stackOperand_reserved h hr), fun h hr => ?_⟩
  have operand := stackOperand_past_header (s := s) (id := id) (w := w) h hr
  have operand_of_reg : ∀ {r}, s.resolve id 0 f.slot0.desc = .ok (.reg r w) → s.stackOperand id w f = .ok (.reg r w) :=
    fun h0 => by rw [operand, h0]; simp [Operand.isReg]
  refine ⟨fun e h0 => raises _ ?operand, fun o h0 => ⟨fun hshape => raises _ ?shape, ?push, ?pop⟩⟩
  case operand => rw [operand, h0]; rfl
  case shape => rw [operand, h0, ok_bind, isReg_eq_false hshape]; rfl
  case push =>
    rintro r rfl rfl hacc
    have hop : s.stackOperand (stackId .push w) w f = .ok (.reg r w) := operand_of_reg h0
    exact exec_of_error hi hs (by
      simp only [StackOp.form, formOutcome, pushHandler, hop, ok_bind, State.opRead, if_true,
        memWrite_eq_error hacc, error_bind])
  case pop =>
    rintro r rfl rfl hacc
    have hop : s.stackOperand (stackId .pop w) w f = .ok (.reg r w) := operand_of_reg h0
    exact exec_of_error hi hs (by
      simp only [StackOp.form, formOutcome, popHandler, hop, ok_bind, memRead_eq_error hacc, error_bind])

end Sys2Proof.Machine
end
